-- ==== Sys2Proof/Word.lean ====
section
/-! DEFINITION. The unit in which frames move over the port (spec 10, R180: data moves in whole bytes). -/

namespace Sys2Proof

/-- One byte of a frame. -/
abbrev Byte := BitVec 8

end Sys2Proof
end

