-- ==== Sys2Proof/Config.lean ====
section
/-! DEFINITION. The values the spec leaves open. Each is a constant without a body, so no proof can rest on what it is. -/

namespace Sys2Proof

/-- Replies whose "seconds remaining" has no stated rounding (R43, R105, R150, R87, R97). -/
inductive RemainingField where
  /-- READ_TANK, seconds until the stale timer expires (R43). -/
  | stale
  /-- START_ALLOCATION in RUNNING, seconds left in the period (R105). -/
  | startAllocation
  /-- HOLD, seconds remaining to the hold end (R150). -/
  | hold
  /-- SET_FORECAST, remaining seconds of the floor (R87). -/
  | setForecast
  /-- READ_CATCHMENT, remaining seconds of the floor (R97). -/
  | readCatchment
deriving DecidableEq, Repr

/-- Bytes and bits of replies whose value no rule states. -/
inductive Unstated where
  /-- The index byte of the allocation record in READ_NOTICES (section 10.6). -/
  | allocationNoticeIndex
  /-- The detail byte of the allocation record in READ_NOTICES (section 10.6). -/
  | allocationNoticeDetail
  /-- The detail byte of a catchment record in READ_NOTICES (section 10.6). -/
  | catchmentNoticeDetail
  /-- The mode-in-force bit of an UNDEFINED tank in READ_ORDERS (R136). -/
  | undefinedTankMode
deriving DecidableEq, Repr

/-- The running timers of the part, each with the record it belongs to (R189). -/
inductive Expiry where
  | stale (tank : Fin 32)
  | dryGap (gauge : Fin 12)
  | evaluation
  | floor (catchment : Fin 8)
  | settle
  | period
  | filter
  | blank
  | off
  | holdEnd
deriving DecidableEq, Repr

/-- DESIGN CHOICE (log 9), safe: whether a part that is not a whole second is rounded up in the named reply, for a timer that
expires at the first count, read at the second. -/
opaque Config.roundsUp : RemainingField → Nat → Nat → Bool

/-- DESIGN CHOICE (log 2), safe: the place of an expiry among those that fall at one count where the sender gives them no order of
their own; the first argument is the index of the next free value. -/
opaque Config.expiryRank : Nat → Expiry → Nat

/-- DESIGN CHOICE (log 10), safe: the byte shifted out at one position of a request-frame transaction after the status byte. -/
opaque Config.shiftedOutByte : Nat → Byte

/-- DESIGN CHOICE (logs 11 and 12), safe: the value an implementation puts in a reply where no rule states one. -/
opaque Config.unstated : Unstated → Nat

end Sys2Proof
end

