-- ==== Sys2Proof/Machine/Operands.lean ====
section
/-! DEFINITION. Numbers and the bytes that carry them (R181: most significant byte first, signed fields in two's complement),
the fields and point lists of payloads (section 10.6), and the arithmetic of 00_scope.md, Arithmetic. -/

namespace Sys2Proof

/-- The number that bytes spell, most significant first (R181). -/
def numberOf (bytes : List Byte) : Nat :=
  bytes.foldl (fun acc b => acc * 256 + b.toNat) 0

/-- A number as `width` bytes, most significant first (R181). -/
def bytesOf : Nat → Nat → List Byte
  | 0, _ => []
  | width + 1, n => bytesOf width (n / 256) ++ [BitVec.ofNat 8 n]

/-- A signed number as `width` bytes of two's complement (R181). -/
def signedBytesOf (width : Nat) (i : Int) : List Byte :=
  bytesOf width (i % (256 ^ width : Nat)).toNat

/-- Reads one number for each width from the front of the bytes and answers the bytes left over. -/
def splitFields : List Nat → List Byte → Option (List Nat × List Byte)
  | [], bytes => some ([], bytes)
  | width :: widths, bytes =>
    if bytes.length < width then none
    else (splitFields widths (bytes.drop width)).map fun p => (numberOf (bytes.take width) :: p.1, p.2)

/-- Reads a payload of exactly these widths. -/
def fieldsOf (widths : List Nat) (bytes : List Byte) : Option (List Nat) :=
  match splitFields widths bytes with
  | some (numbers, []) => some numbers
  | _ => none

/-- Numbers laid out in fields of these widths. -/
def joinFields (widths numbers : List Nat) : List Byte :=
  (List.zipWith bytesOf widths numbers).flatten

/-- One point of a table: (level, volume) or (head, rate). -/
structure Point where
  x : Nat
  y : Nat
deriving DecidableEq, Repr

/-- `count` pairs of numbers of the two widths, from the front of the bytes (R5, R6, R184). -/
def pairsOf (xWidth yWidth : Nat) : Nat → List Byte → List Point
  | 0, _ => []
  | count + 1, bytes =>
    { x := numberOf (bytes.take xWidth), y := numberOf ((bytes.drop xWidth).take yWidth) } ::
      pairsOf xWidth yWidth count (bytes.drop (xWidth + yWidth))

/-- A counter's addition: it saturates at its maximum (00_scope.md, Arithmetic). -/
def satAdd (maximum a b : Nat) : Nat :=
  min maximum (a + b)

/-- A value outside its range becomes the nearest end of the range (00_scope.md, Arithmetic). -/
def clamp (low high n : Nat) : Nat :=
  max low (min high n)

/-- A division of non-negative integers that the text marks "rounded up". -/
def divUp (a b : Nat) : Nat :=
  (a + b - 1) / b

/-- The maximum of a 16-bit counter. -/
def max16 : Nat := 65535

/-- The maximum of a 32-bit counter. -/
def max32 : Nat := 4294967295

/-- The maximum of a 48-bit counter. -/
def max48 : Nat := 281474976710655

/-- Bits as the number whose bit 0 is the first of the list (section 10.6). -/
def bitsOf : List Bool → Nat
  | [] => 0
  | b :: bs => (if b then 1 else 0) + 2 * bitsOf bs

end Sys2Proof
end

