-- ==== Sys2Proof/Syntax.lean ====
section
/-! DEFINITION. The commands of the block, one constructor per row of spec/opcode_table.json, and the reply statuses.
A request's operands are the fields of its payload (section 10.6), each the number that the frame's bytes spell, in range or
not: the owner of the request checks them. -/

namespace Sys2Proof

/-- The status codes of section 10.2. -/
inductive Status where
  | ok | nothing | unknownRequest | badLength | badIndex | badValue | badTable | notDefined | notOffline
  | notInService | inUse | oldReport | notHeld | holdLocked | notTripped | noAlert | stopped
deriving DecidableEq, Repr

/-- The fields of a DEFINE_TANK payload after the tank index (R1, section 10.6). -/
structure TankFields where
  catchment : Nat
  zone : Nat
  combine : Nat
  basePriority : Nat
  dryLevel : Nat
  crestLevel : Nat
  endHysteresis : Nat
  rMax : Nat
  rMin : Nat
  fallMin : Nat
  stallCount : Nat
  faultReaction : Nat
  reportTimeout : Nat
  lostLimit : Nat
  quietTime : Nat
  confirmTime : Nat
deriving DecidableEq, Repr

/-- The two moments of a transaction (R180): it begins at the assertion of the chip-select line, when its status byte is formed, and
it ends at the release, when the content that the host has shifted in is judged. -/
inductive Moment (α : Type) where
  | begins
  | ends (content : α)
deriving DecidableEq, Repr

/-- The commands: power, reset and time; port transactions; the 35 requests; line events; timer expiries. -/
inductive Instr where
  | powerOn
  | resetNAsserted
  | resetNReleased
  | decisecondTick
  /-- The end of a transaction of one byte, whatever its value. The kind of a transaction shows at its end alone, so its beginning is
  that of either command below (log 5). -/
  | statusPoll
  /-- At its end, the number of bytes of the transaction, the first of them 0. -/
  | fetch (moment : Moment Nat)
  /-- At its end, every whole byte the host has shifted in. -/
  | requestFrame (moment : Moment (List Byte))
  /-- `entries` are the payload bytes after the count. -/
  | setLimits (count : Nat) (entries : List Byte)
  | setBank (bank budget : Nat)
  | setNoticeMask (tankKinds catchmentKinds allocationKinds : Nat)
  | defineTank (tank : Nat) (fields : TankFields)
  /-- `points` are the payload bytes after the count. -/
  | loadStageTable (tank count : Nat) (points : List Byte)
  /-- `points` are the payload bytes after the count. -/
  | loadRatingTable (tank count : Nat) (points : List Byte)
  | placeInService (tank : Nat)
  | takeOffline (tank : Nat)
  | retireTank (tank : Nat)
  | defineGauge (gauge depth debounce dryGap : Nat)
  | retireGauge (gauge : Nat)
  /-- `body` are the payload bytes after the count: the gauge indices, then the thresholds and times. -/
  | defineCatchment (catchment count : Nat) (body : List Byte)
  | retireCatchment (catchment : Nat)
  | reportLevel (tank level age : Nat)
  | setMode (tank mode value : Nat)
  | setInhibit (tank flag : Nat)
  | startAllocation
  | stopAllocation
  | hold (duration : Nat)
  | release
  | resume
  | clearFault (tank : Nat)
  | ackAlert (catchment : Nat)
  | setForecast (catchment level duration : Nat)
  | resetCounts (tank : Nat)
  /-- RESET_COUNTS whose tank index is 255, ALL (R176). -/
  | resetCountsAll
  | clearState
  | readTank (tank : Nat)
  | readOrders
  | readSpill (tank : Nat)
  | readGauge (gauge : Nat)
  | readCatchment (catchment : Nat)
  | readAllocation
  | readNotices
  | readTime
  | identify
  /-- The passage of one TIP line from deasserted to asserted (R66). -/
  | tipEdge (gauge : Fin 12)
  | zinhChange (zone : Fin 4) (asserted : Bool)
  | capSelChange (line : Fin 3) (asserted : Bool)
  | intakeHighChange (asserted : Bool)
  | staleExpiry (tank : Fin 32)
  | dryGapExpiry (gauge : Fin 12)
  | evaluationExpiry
  | floorExpiry (catchment : Fin 8)
  | settleExpiry
  | allocationRun
  | filterExpiry
  | blankExpiry
  | offTimerExpiry
  | holdEndExpiry
  | frameRefusedByPort
deriving DecidableEq, Repr

end Sys2Proof
end

