-- ==== Sys2Proof/WellFormed.lean ====
section
/-! DEFINITION. Which commands can be sent at all: a request's fields fit the bytes that its frame gives them (section 10.6),
its payload is at most 255 bytes (R181), and a transaction has the shape of its kind (R180). -/

namespace Sys2Proof

/-- Every field of a DEFINE_TANK payload fits its width. -/
def TankFields.wellFormed (f : TankFields) : Bool :=
  [f.catchment, f.zone, f.combine, f.basePriority, f.stallCount, f.faultReaction, f.lostLimit].all (· < 2 ^ 8) &&
  [f.dryLevel, f.crestLevel, f.endHysteresis, f.rMax, f.rMin, f.fallMin, f.reportTimeout, f.quietTime,
    f.confirmTime].all (· < 2 ^ 16)

/-- The command can be sent: its operands fit their fields. -/
def Instr.wellFormed : Instr → Bool
  | .fetch (.ends clocked) => 2 ≤ clocked
  | .requestFrame (.ends content) => 2 ≤ content.length && content.head? != some 0
  | .setLimits n entries => n < 2 ^ 8 && entries.length + 1 < 2 ^ 8
  | .setBank bank budget => bank < 2 ^ 8 && budget < 2 ^ 16
  | .setNoticeMask t c a => t < 2 ^ 8 && c < 2 ^ 8 && a < 2 ^ 8
  | .defineTank tank f => tank < 2 ^ 8 && f.wellFormed
  | .loadStageTable tank n points => tank < 2 ^ 8 && n < 2 ^ 8 && points.length + 2 < 2 ^ 8
  | .loadRatingTable tank n points => tank < 2 ^ 8 && n < 2 ^ 8 && points.length + 2 < 2 ^ 8
  | .placeInService tank | .takeOffline tank | .retireTank tank | .clearFault tank | .readTank tank
  | .readSpill tank => tank < 2 ^ 8
  | .defineGauge gauge depth debounce dryGap =>
    gauge < 2 ^ 8 && depth < 2 ^ 8 && debounce < 2 ^ 8 && dryGap < 2 ^ 32
  | .retireGauge gauge | .readGauge gauge => gauge < 2 ^ 8
  | .defineCatchment c n body => c < 2 ^ 8 && n < 2 ^ 8 && body.length + 2 < 2 ^ 8
  | .retireCatchment c | .ackAlert c | .readCatchment c => c < 2 ^ 8
  | .reportLevel tank level age => tank < 2 ^ 8 && level < 2 ^ 16 && age < 2 ^ 16
  | .setMode tank mode value => tank < 2 ^ 8 && mode < 2 ^ 8 && value < 2 ^ 16
  | .setInhibit tank flag => tank < 2 ^ 8 && flag < 2 ^ 8
  | .hold duration => duration < 2 ^ 32
  | .setForecast c level duration => c < 2 ^ 8 && level < 2 ^ 8 && duration < 2 ^ 32
  | .resetCounts tank => tank < 255
  | .powerOn | .resetNAsserted | .resetNReleased | .decisecondTick
    | .statusPoll | .fetch .begins | .requestFrame .begins | .startAllocation | .stopAllocation
  | .release | .resume | .resetCountsAll | .clearState | .readOrders | .readAllocation | .readNotices | .readTime
  | .identify | .tipEdge _ | .zinhChange _ _ | .capSelChange _ _ | .intakeHighChange _ | .staleExpiry _
  | .dryGapExpiry _ | .evaluationExpiry | .floorExpiry _ | .settleExpiry | .allocationRun | .filterExpiry
  | .blankExpiry | .offTimerExpiry | .holdEndExpiry | .frameRefusedByPort => true

end Sys2Proof
end

