-- ==== Sys2Proof/Decode.lean ====
section
/-! DEFINITION. Request frames: the code and payload of each request (sections 10.2 and 10.6), the port's own judgement of a
frame (R181), and the frame that spells a request. spec/opcode_table.json gives its rows no bits, so no table word spells a
command. -/

namespace Sys2Proof

/-- No row of the table has bits, so no word spells a command. -/
def decodeTableWord (_nbits _w : Nat) : Option Instr :=
  none

/-- The code byte of a reply status (section 10.2). -/
def Status.code : Status → Nat
  | .ok => 0
  | .nothing => 1
  | .unknownRequest => 2
  | .badLength => 3
  | .badIndex => 4
  | .badValue => 5
  | .badTable => 6
  | .notDefined => 7
  | .notOffline => 8
  | .notInService => 9
  | .inUse => 10
  | .oldReport => 11
  | .notHeld => 12
  | .holdLocked => 13
  | .notTripped => 14
  | .noAlert => 15
  | .stopped => 16

/-- The widths of the DEFINE_TANK payload, the tank index first (section 10.6). -/
def tankWidths : List Nat :=
  [1, 1, 1, 1, 1, 2, 2, 2, 2, 2, 2, 1, 1, 2, 1, 2, 2]

/-- The fields of a DEFINE_TANK payload in frame order, without the tank index (section 10.6). -/
def TankFields.toList (f : TankFields) : List Nat :=
  [f.catchment, f.zone, f.combine, f.basePriority, f.dryLevel, f.crestLevel, f.endHysteresis, f.rMax, f.rMin, f.fallMin,
    f.stallCount, f.faultReaction, f.reportTimeout, f.lostLimit, f.quietTime, f.confirmTime]

/-- A request whose payload is one index byte. -/
def indexRequest (make : Nat → Instr) (payload : List Byte) : Option Instr :=
  match fieldsOf [1] payload with
  | some [i] => some (make i)
  | _ => none

/-- A request whose payload is empty. -/
def bareRequest (i : Instr) (payload : List Byte) : Option Instr :=
  if payload = [] then some i else none

/-- The request that a payload spells under a code, or none where its length is not one the request admits (section 10.6).
For codes 1, 5, 6 and 12 any length that reaches the count field is admitted (R181). -/
def parsePayload (code : Nat) (payload : List Byte) : Option Instr :=
  match code with
  | 1 => match splitFields [1] payload with
    | some ([n], entries) => some (.setLimits n entries)
    | _ => none
  | 2 => match fieldsOf [1, 2] payload with
    | some [bank, budget] => some (.setBank bank budget)
    | _ => none
  | 3 => match fieldsOf [1, 1, 1] payload with
    | some [t, c, a] => some (.setNoticeMask t c a)
    | _ => none
  | 4 => match fieldsOf tankWidths payload with
    | some [i, c, z, cb, pr, dry, crest, hyst, rMax, rMin, fall, n, react, timeout, lost, quiet, confirm] =>
      some (.defineTank i ⟨c, z, cb, pr, dry, crest, hyst, rMax, rMin, fall, n, react, timeout, lost, quiet, confirm⟩)
    | _ => none
  | 5 => match splitFields [1, 1] payload with
    | some ([i, n], points) => some (.loadStageTable i n points)
    | _ => none
  | 6 => match splitFields [1, 1] payload with
    | some ([i, n], points) => some (.loadRatingTable i n points)
    | _ => none
  | 7 => indexRequest .placeInService payload
  | 8 => indexRequest .takeOffline payload
  | 9 => indexRequest .retireTank payload
  | 10 => match fieldsOf [1, 1, 1, 4] payload with
    | some [g, d, debounce, gap] => some (.defineGauge g d debounce gap)
    | _ => none
  | 11 => indexRequest .retireGauge payload
  | 12 => match splitFields [1, 1] payload with
    | some ([c, n], body) => some (.defineCatchment c n body)
    | _ => none
  | 13 => indexRequest .retireCatchment payload
  | 14 => match fieldsOf [1, 2, 2] payload with
    | some [i, level, age] => some (.reportLevel i level age)
    | _ => none
  | 15 => match fieldsOf [1, 1, 2] payload with
    | some [i, mode, value] => some (.setMode i mode value)
    | _ => none
  | 16 => match fieldsOf [1, 1] payload with
    | some [i, flag] => some (.setInhibit i flag)
    | _ => none
  | 17 => bareRequest .startAllocation payload
  | 18 => bareRequest .stopAllocation payload
  | 19 => match fieldsOf [4] payload with
    | some [duration] => some (.hold duration)
    | _ => none
  | 20 => bareRequest .release payload
  | 21 => bareRequest .resume payload
  | 22 => indexRequest .clearFault payload
  | 23 => indexRequest .ackAlert payload
  | 24 => match fieldsOf [1, 1, 4] payload with
    | some [c, level, duration] => some (.setForecast c level duration)
    | _ => none
  | 25 => indexRequest (fun i => if i = 255 then .resetCountsAll else .resetCounts i) payload
  | 26 => bareRequest .clearState payload
  | 27 => indexRequest .readTank payload
  | 28 => bareRequest .readOrders payload
  | 29 => indexRequest .readSpill payload
  | 30 => indexRequest .readGauge payload
  | 31 => indexRequest .readCatchment payload
  | 32 => bareRequest .readAllocation payload
  | 33 => bareRequest .readNotices payload
  | 34 => bareRequest .readTime payload
  | 35 => bareRequest .identify payload
  | _ => none

/-- What the port holds while BUSY: the tag of the frame taken, and the request it hands on or the status it refuses with. -/
inductive InHand where
  | refused (tag : Byte) (status : Status)
  | request (tag : Byte) (command : Instr)
deriving DecidableEq, Repr

/-- The port's judgement of a request frame, in the order of R181: truncation, code, admitted length. -/
def judgeFrame (content : List Byte) : InHand :=
  match content with
  | code :: tag :: length :: rest =>
    if rest.length < length.toNat then .refused tag .badLength
    else if code.toNat < 1 ∨ 35 < code.toNat then .refused tag .unknownRequest
    else match parsePayload code.toNat (rest.take length.toNat) with
      | some command => .request tag command
      | none => .refused tag .badLength
  | _ :: tag :: _ => .refused tag .badLength
  | _ => .refused 0 .badLength

/-- The code and payload of a request (sections 10.2 and 10.6); none for a command that is no request. -/
def Instr.codeAndPayload : Instr → Option (Nat × List Byte)
  | .setLimits n entries => some (1, bytesOf 1 n ++ entries)
  | .setBank bank budget => some (2, joinFields [1, 2] [bank, budget])
  | .setNoticeMask t c a => some (3, joinFields [1, 1, 1] [t, c, a])
  | .defineTank tank f => some (4, joinFields tankWidths (tank :: f.toList))
  | .loadStageTable tank n points => some (5, joinFields [1, 1] [tank, n] ++ points)
  | .loadRatingTable tank n points => some (6, joinFields [1, 1] [tank, n] ++ points)
  | .placeInService tank => some (7, bytesOf 1 tank)
  | .takeOffline tank => some (8, bytesOf 1 tank)
  | .retireTank tank => some (9, bytesOf 1 tank)
  | .defineGauge g d debounce gap => some (10, joinFields [1, 1, 1, 4] [g, d, debounce, gap])
  | .retireGauge g => some (11, bytesOf 1 g)
  | .defineCatchment c n body => some (12, joinFields [1, 1] [c, n] ++ body)
  | .retireCatchment c => some (13, bytesOf 1 c)
  | .reportLevel tank level age => some (14, joinFields [1, 2, 2] [tank, level, age])
  | .setMode tank mode value => some (15, joinFields [1, 1, 2] [tank, mode, value])
  | .setInhibit tank flag => some (16, joinFields [1, 1] [tank, flag])
  | .startAllocation => some (17, [])
  | .stopAllocation => some (18, [])
  | .hold duration => some (19, bytesOf 4 duration)
  | .release => some (20, [])
  | .resume => some (21, [])
  | .clearFault tank => some (22, bytesOf 1 tank)
  | .ackAlert c => some (23, bytesOf 1 c)
  | .setForecast c level duration => some (24, joinFields [1, 1, 4] [c, level, duration])
  | .resetCounts tank => some (25, bytesOf 1 tank)
  | .resetCountsAll => some (25, bytesOf 1 255)
  | .clearState => some (26, [])
  | .readTank tank => some (27, bytesOf 1 tank)
  | .readOrders => some (28, [])
  | .readSpill tank => some (29, bytesOf 1 tank)
  | .readGauge g => some (30, bytesOf 1 g)
  | .readCatchment c => some (31, bytesOf 1 c)
  | .readAllocation => some (32, [])
  | .readNotices => some (33, [])
  | .readTime => some (34, [])
  | .identify => some (35, [])
  | .powerOn | .resetNAsserted | .resetNReleased | .decisecondTick | .statusPoll | .fetch _ | .requestFrame _
  | .tipEdge _ | .zinhChange _ _ | .capSelChange _ _ | .intakeHighChange _ | .staleExpiry _ | .dryGapExpiry _
  | .evaluationExpiry | .floorExpiry _ | .settleExpiry | .allocationRun | .filterExpiry | .blankExpiry
  | .offTimerExpiry | .holdEndExpiry | .frameRefusedByPort => none

/-- The frame that spells a request under a tag (section 10.6, request frame): code, tag, length, payload. -/
def Instr.frame (tag : Byte) (i : Instr) : Option (List Byte) :=
  i.codeAndPayload.map fun p =>
    BitVec.ofNat 8 p.1 :: tag :: BitVec.ofNat 8 p.2.length :: p.2

end Sys2Proof
end

