-- ==== Sys2Proof/Machine/State.lean ====
section
/-! DEFINITION. The state of the part, block by block as 00_scope.md lists the blocks, and the state right after reset.
An absent record is an UNDEFINED tank, gauge or catchment. What only an IN_SERVICE tank has stands in its `Service` part, and
what only one state of a machine has stands inside that state, so that no timer runs outside its state (log 18). -/

namespace Sys2Proof.Machine

/-- A timer: stopped, or running with the decisecond count at which it expires (R189). -/
abbrev Timer := Option Nat

/-! ### Tank Table (spec 01) -/

/-- The combine select (R1). -/
inductive Combine where
  | or | and
deriving DecidableEq, Repr

/-- The fault reaction (R1). -/
inductive FaultReaction where
  | latch | retry
deriving DecidableEq, Repr

/-- The mode of a tank (R11). -/
inductive Mode where
  | auto | manual
deriving DecidableEq, Repr

/-- A mode with its manual value (R2, R11, R12). -/
structure ModePair where
  mode : Mode
  value : Nat
deriving DecidableEq, Repr

/-- The op state of an IN_SERVICE tank (R16). -/
inductive OpState where
  | awaitLevel | dry | filling | storing | draining | faulted
deriving DecidableEq, Repr

/-- The definition part of a tank (R1). -/
structure TankDef where
  catchment : Fin 8
  zone : Fin 4
  combine : Combine
  basePriority : Fin 16
  dryLevel : Nat
  crestLevel : Nat
  endHysteresis : Nat
  rMax : Nat
  rMin : Nat
  fallMin : Nat
  /-- N, the stall count. -/
  stallCount : Nat
  faultReaction : FaultReaction
  reportTimeout : Nat
  lostLimit : Nat
  quietTime : Nat
  confirmTime : Nat
deriving DecidableEq, Repr

/-- The stage-storage table with the two volumes derived from it (R5, R7). -/
structure StageTable where
  points : List Point
  vDry : Nat
  vCrest : Nat
deriving DecidableEq, Repr

/-! ### Level Processor (spec 02) -/

/-- The predicted time until the tank spills (R35). -/
inductive TimeToSpill where
  | absent | never | seconds (n : Nat)
deriving DecidableEq, Repr

/-- What the estimator remembers of the report before (R31). -/
structure PreviousVolume where
  volume : Nat
  time : Nat
deriving DecidableEq, Repr

/-- The Level Processor's state of an IN_SERVICE tank (opening table of spec 02). -/
structure LevelState where
  lastLevel : Option Nat
  lastReport : Option Nat
  clamped : Bool
  aboveTable : Bool
  stale : Bool
  volume : Option Nat
  previous : Option PreviousVolume
  netRate : Option Int
  timeToSpill : TimeToSpill
  imminent : Bool
  staleTimer : Timer
  expiries : Nat
deriving DecidableEq, Repr

/-! ### Drain Supervisor (spec 03) -/

/-- The Drain Supervisor's state of an IN_SERVICE tank (R46). -/
structure Supervisor where
  stallCounter : Nat
  goodCounter : Nat
  snapshot : Option Nat
  reportMark : Bool
  stall : Bool
  levelLost : Bool
deriving DecidableEq, Repr

/-! ### Spill Accountant (spec 09) -/

/-- The alert levels, NONE < WATCH < WARNING < SEVERE (R78). -/
inductive AlertLevel where
  | noAlert | watch | warning | severe
deriving DecidableEq, Repr

/-- How an opening was counted (R164). -/
inductive CountMark where
  | counted | merged
deriving DecidableEq, Repr

/-- How an event was closed (R168, R170, R171). -/
inductive CloseMark where
  | ended | lost | cut
deriving DecidableEq, Repr

/-- A spill candidate (R159). -/
structure Candidate where
  start : Nat
  litres : Nat
  previousRate : Nat
  previousReport : Nat
  peakHead : Nat
deriving DecidableEq, Repr

/-- An open spill event (R159). -/
structure SpillEvent where
  start : Nat
  accountedFrom : Nat
  litres : Nat
  peakHead : Nat
  previousRate : Nat
  previousReport : Nat
  mark : CountMark
  restricted : Bool
  alertAtOpen : AlertLevel
  peakAlert : AlertLevel
  quietStart : Option Nat
deriving DecidableEq, Repr

/-- What a tank holds of a present spill: at most one of a candidate and an open event (R159). -/
inductive Spilling where
  | quiet
  | candidate (c : Candidate)
  | event (e : SpillEvent)
deriving DecidableEq, Repr

/-- The counting window (R159, R164). -/
structure Window where
  start : Nat
  stop : Nat
deriving DecidableEq, Repr

/-- The five counters of a tank (R159, R173). -/
structure SpillCounters where
  begun : Nat
  counted : Nat
  seconds : Nat
  litres : Nat
  restricted : Nat
deriving DecidableEq, Repr

/-- The record of the last close (R159, R169). -/
structure LastClose where
  mark : CloseMark
  start : Nat
  stop : Nat
  seconds : Nat
  litres : Nat
  restricted : Bool
deriving DecidableEq, Repr

/-- The spill state that outlives a passage through OFFLINE (R159). -/
structure SpillBook where
  counters : SpillCounters
  window : Option Window
  lastClose : Option LastClose
deriving DecidableEq, Repr

/-! ### The tank record and the Order Buffer (specs 01 and 07) -/

/-- What a tank has only while IN_SERVICE: op state, level state, supervisor state, present spill (R8, R9, R46, R159). -/
structure Service where
  op : OpState
  level : LevelState
  supervisor : Supervisor
  spilling : Spilling
deriving DecidableEq, Repr

/-- The record of a defined tank (R2). The tank is IN_SERVICE while `service` is present and OFFLINE while it is not. -/
structure Tank where
  defn : TankDef
  stage : Option StageTable
  rating : Option (List Point)
  inForce : ModePair
  pendingMode : ModePair
  softInhibit : Bool
  inhibited : Bool
  book : SpillBook
  service : Option Service
deriving DecidableEq, Repr

/-- The lifecycle states (R8, section 10.6). -/
inductive Lifecycle where
  | undefined | offline | inService
deriving DecidableEq, Repr

/-- The mode for which a next order was written (R126). -/
inductive NextMark where
  | noMark | auto | manual
deriving DecidableEq, Repr

/-- The Order Buffer's entry of one tank index (R126). -/
structure OrderEntry where
  active : Nat
  next : Nat
  mark : NextMark
  activeChanged : Bool
deriving DecidableEq, Repr

/-! ### Gauge Unit and Alert Unit (specs 04 and 05) -/

/-- The storm state of a gauge (R62). -/
inductive StormState where
  | dry | wet
deriving DecidableEq, Repr

/-- The record of a defined gauge (R62). -/
structure Gauge where
  depthPerTip : Nat
  debounce : Nat
  dryGap : Nat
  storm : StormState
  stormDepth : Nat
  tips : Nat
  lastTip : Option Nat
  interval : Option Nat
  tipDepth : Option Nat
  dryTimer : Timer
deriving DecidableEq, Repr

/-- The definition of a catchment (R78). -/
structure CatchmentDef where
  gauges : List (Fin 12)
  iWatch : Nat
  iWarning : Nat
  iSevere : Nat
  dWatch : Nat
  dWarning : Nat
  dSevere : Nat
  hysteresis : Nat
  holdDown : Nat
deriving DecidableEq, Repr

/-- A forecast floor: its level, its expiry as a device time, and the count at which it expires (R78, R87, R189). -/
structure Floor where
  level : AlertLevel
  expiry : Nat
  timer : Nat
deriving DecidableEq, Repr

/-- The record of a defined catchment (R78). -/
structure Catchment where
  defn : CatchmentDef
  lastIntensity : Nat
  lastDepth : Nat
  gaugeLevel : AlertLevel
  holdStart : Option Nat
  floor : Option Floor
  effective : AlertLevel
  acknowledged : Bool
  raised : Option Nat
  peak : Nat
deriving DecidableEq, Repr

/-- The Alert Unit beside its records (R82, R94). -/
structure Alerts where
  evalTimer : Timer
  /-- E, the evaluation interval. -/
  interval : Nat
  rainAlert : Bool
deriving DecidableEq, Repr

/-! ### Allocator (spec 06) -/

/-- What the last computation found (R116). -/
structure LastComputation where
  time : Nat
  available : Nat
  manual : Nat
  remaining : Nat
deriving DecidableEq, Repr

/-- The Allocator's state (opening table of spec 06). -/
structure Allocator where
  running : Bool
  banks : Vector Nat 8
  observed : Fin 8
  selected : Fin 8
  settleTimer : Timer
  /-- B, the budget in force. -/
  budget : Nat
  /-- P, the allocation period. -/
  period : Nat
  /-- G, the guard band. -/
  guardBand : Nat
  /-- O, the override budget. -/
  overrideBudget : Nat
  imminentThreshold : Nat
  settleTime : Nat
  periodTimer : Timer
  runOrder : List (Fin 32)
  overrun : Bool
  last : Option LastComputation
deriving DecidableEq, Repr

/-! ### Intake Guard (spec 08) -/

/-- The trip machine. The filter timer runs only in ARMED, the blank timer exactly in BLANKED and the off-timer exactly in
TRIPPED (R140). -/
inductive Trip where
  | armed (filter : Timer)
  | blanked (expiry : Nat)
  | tripped (expiry : Nat)
deriving DecidableEq, Repr

/-- The hold machine. HELD has start, limit, end and a running end timer; OVERRIDDEN has start and limit, its end is the limit
and its timer is stopped; NONE has nothing (R149). -/
inductive Hold where
  | noHold
  | held (start limit stop timer : Nat)
  | overridden (start limit : Nat)
deriving DecidableEq, Repr

/-- The Intake Guard's state (R140, R141, R149). -/
structure Guard where
  trip : Trip
  lineHigh : Bool
  tripCount : Nat
  extensionCount : Nat
  /-- F, the filter time. -/
  filterTime : Nat
  /-- S, the blank time. -/
  blankTime : Nat
  /-- T_off, the off-time. -/
  offTime : Nat
  /-- Hmax, the longest hold. -/
  longestHold : Nat
  hold : Hold
deriving DecidableEq, Repr

/-! ### Notice Set and Request Port (spec 10) -/

/-- The Notice Set's entry of one tank (R185); bit order of section 10.6. -/
structure TankNotice where
  kinds : BitVec 8
  detail : Option CloseMark
deriving DecidableEq, Repr

/-- The Notice Set with its mask and the ATTN line (R185, R186). -/
structure Notices where
  allocation : BitVec 7
  tanks : Vector TankNotice 32
  catchments : Vector (BitVec 3) 8
  allocationMask : BitVec 7
  tankMask : BitVec 8
  catchmentMask : BitVec 3
  attn : Bool
deriving DecidableEq, Repr

/-- A stored reply (section 10.6, reply frame). -/
structure Reply where
  tag : Byte
  status : Status
  payload : List Byte
deriving DecidableEq, Repr

/-- The port state: BUSY holds the request in hand, REPLY the stored reply (R180, R181). -/
inductive Port where
  | idle
  | busy (inHand : InHand)
  | reply (stored : Reply)
deriving DecidableEq, Repr

/-- What the beginning of a transaction decides of it: the port state, the OVERRUN flag and the level of ATTN as they stand then
(R180, R183). -/
structure Beginning where
  port : Port
  overrun : Bool
  attn : Bool
deriving DecidableEq, Repr

/-- The transaction under way while the chip-select line is asserted (R180): begun, or disregarded because RESET_N was asserted at its
beginning or cut it short (R180, R192). -/
inductive Transaction where
  | absent
  | begun (beginning : Beginning)
  | disregarded
deriving DecidableEq, Repr

/-- The levels of the input lines that rules read (R13, R101, R140). -/
structure Pins where
  zinh : Vector Bool 4
  capSel : Vector Bool 3
  intakeHigh : Bool
deriving DecidableEq, Repr

/-- The whole part. `pending` (the waiting commands), `shiftedOut` (what the last transaction shifted out) and `freeCount`
(the index of the next free value) are the model's own fields. -/
structure State where
  pending : List Instr
  resetAsserted : Bool
  pins : Pins
  /-- The decisecond count of the Timebase (R188). -/
  ds : Nat
  port : Port
  overrun : Bool
  transaction : Transaction
  shiftedOut : List Byte
  freeCount : Nat
  tanks : Vector (Option Tank) 32
  orders : Vector OrderEntry 32
  gauges : Vector (Option Gauge) 12
  catchments : Vector (Option Catchment) 8
  alerts : Alerts
  alloc : Allocator
  guard : Guard
  /-- W, the counting window in hours (R174). -/
  windowHours : Nat
  notices : Notices
deriving DecidableEq, Repr

/-- The part never stops by itself: the spec names no condition that halts it, so there is no fault to raise. -/
inductive Fault where
deriving DecidableEq, Repr

/-- Why a command has no meaning here. -/
inductive Refusal where
  /-- Raised only by an arm of `exec` that has no meaning yet; safe, since nothing can be concluded from it. -/
  | notModelled (mnemonic : String)
deriving DecidableEq, Repr

/-! ### Values at reset -/

/-- The entry of a tank index that holds no order (R126, R138). -/
def OrderEntry.zero : OrderEntry :=
  { active := 0, next := 0, mark := .noMark, activeChanged := false }

/-- The Alert Unit while RESET_N is asserted (R98). -/
def Alerts.atReset : Alerts :=
  { evalTimer := none, interval := 60, rainAlert := false }

/-- The Allocator while RESET_N is asserted (R104, R124); the CAP_SEL values are 0 until the release takes the lines (log 6). -/
def Allocator.atReset : Allocator :=
  { running := false, banks := Vector.replicate 8 0, observed := 0, selected := 0, settleTimer := none, budget := 0,
    period := 120, guardBand := 0, overrideBudget := 0, imminentThreshold := 1800, settleTime := 5, periodTimer := none,
    runOrder := [], overrun := false, last := none }

/-- The Intake Guard while RESET_N is asserted (R141, R157); the line level is deasserted until the release takes it (log 6). -/
def Guard.atReset : Guard :=
  { trip := .armed none, lineHigh := false, tripCount := 0, extensionCount := 0, filterTime := 5, blankTime := 60,
    offTime := 120, longestHold := 3600, hold := .noHold }

/-- The Notice Set while RESET_N is asserted (R192). -/
def Notices.atReset : Notices :=
  { allocation := 0, tanks := Vector.replicate 32 { kinds := 0, detail := none }, catchments := Vector.replicate 8 0,
    allocationMask := BitVec.allOnes 7, tankMask := BitVec.allOnes 8, catchmentMask := BitVec.allOnes 3, attn := false }

/-- Every input line deasserted. -/
def Pins.low : Pins :=
  { zinh := Vector.replicate 4 false, capSel := Vector.replicate 3 false, intakeHigh := false }

/-- The part held in reset with these line levels (R20, R44, R60, R76, R98, R124, R138, R157, R179, R192). -/
def State.held (pins : Pins) : State :=
  { pending := [], resetAsserted := true, pins := pins, ds := 0, port := .idle, overrun := false,
    transaction := .absent, shiftedOut := [], freeCount := 0, tanks := Vector.replicate 32 none,
    orders := Vector.replicate 32 OrderEntry.zero,
    gauges := Vector.replicate 12 none, catchments := Vector.replicate 8 none, alerts := Alerts.atReset,
    alloc := Allocator.atReset, guard := Guard.atReset, windowHours := 24, notices := Notices.atReset }

/-- The machine right after reset: RESET_N just released with every input line deasserted (log 7), so the evaluation timer runs
to E seconds after device time 0 (R82). -/
def State.reset : State :=
  { State.held Pins.low with
    resetAsserted := false
    alerts := { Alerts.atReset with evalTimer := some 600 } }

end Sys2Proof.Machine
end

