-- ==== Sys2Proof/Machine/Flags.lean ====
section
/-! DEFINITION. The flags, op state, levels and lines that are formed from other state, the status byte, and the codes of the
enumerations in frames (section 10.6). Each function here is one rule's formula; the operations that call it say when. -/

namespace Sys2Proof.Machine

/-! ### Tanks -/

/-- The effective inhibit (R13). -/
def formInhibit (combine : Combine) (line soft : Bool) : Bool :=
  match combine with
  | .or => line || soft
  | .and => line && soft

/-- A latched fault is present: LEVEL_LOST under either reaction, or STALL under LATCH (R16). -/
def latchedFault (d : TankDef) (v : Supervisor) : Bool :=
  v.levelLost || (v.stall && d.faultReaction == .latch)

/-- The op state: the first entry of R16 whose condition holds. -/
def formOp (d : TankDef) (l : LevelState) (v : Supervisor) (active : Nat) : OpState :=
  if latchedFault d v then .faulted
  else match l.lastLevel with
    | none => .awaitLevel
    | some level =>
      if 0 < active then .draining
      else if level ≤ d.dryLevel then .dry
      else if 0 < l.netRate.getD 0 then .filling
      else .storing

/-- The probe rate (R53). -/
def probeRate (d : TankDef) : Nat :=
  if 0 < d.rMin then d.rMin else divUp d.rMax 8

/-- The end threshold of a tank (R160). -/
def endThreshold (d : TankDef) : Nat :=
  d.crestLevel - d.endHysteresis

/-- The head handed to the Spill Accountant (R42). -/
def headOf (d : TankDef) (level : Nat) : Nat :=
  level - d.crestLevel

/-- The lifecycle state of a record (R8). -/
def lifecycleOf : Option Tank → Lifecycle
  | none => .undefined
  | some t => if t.service.isSome then .inService else .offline

/-! ### Level Processor -/

/-- The volume sample of the estimator (R32): hectolitres times 100 are litres, truncated toward zero, clamped. -/
def rateSample (volume previous seconds : Nat) : Int :=
  max (-65535) (min 65535 ((((volume : Int) - previous) * 100).tdiv seconds))

/-- The smoothed net rate (R33). -/
def smoothRate (rate : Option Int) (sample : Int) : Int :=
  match rate with
  | none => sample
  | some e => e + (sample - e).tdiv 4

/-- The time-to-spill (R35). -/
def formTimeToSpill (level volume : Nat) (rate : Option Int) (crestLevel vCrest : Nat) : TimeToSpill :=
  if crestLevel < level then .seconds 0
  else match rate with
    | none => .never
    | some e =>
      if e ≤ 0 then .never
      else
        let t := divUp ((vCrest - volume) * 100) e.toNat
        if 604800 < t then .never else .seconds t

/-- The imminent flag (R36). -/
def formImminent (t : TimeToSpill) (threshold : Nat) : Bool :=
  match t with
  | .seconds n => n ≤ threshold
  | .never => false
  | .absent => false

/-! ### Alert levels and the RAIN_ALERT line -/

/-- The order NONE < WATCH < WARNING < SEVERE (R78), which is also the code in frames (section 10.6). -/
def AlertLevel.code : AlertLevel → Nat
  | .noAlert => 0
  | .watch => 1
  | .warning => 2
  | .severe => 3

/-- The level of a code (section 10.6). -/
def AlertLevel.ofCode : Nat → Option AlertLevel
  | 0 => some .noAlert
  | 1 => some .watch
  | 2 => some .warning
  | 3 => some .severe
  | _ => none

/-- The greater of two levels. -/
def AlertLevel.greater (a b : AlertLevel) : AlertLevel :=
  if a.code < b.code then b else a

/-- One step down (R86). -/
def AlertLevel.lower : AlertLevel → AlertLevel
  | .severe => .warning
  | .warning => .watch
  | .watch => .noAlert
  | .noAlert => .noAlert

/-- The level is WARNING or SEVERE (R94, R114). -/
def AlertLevel.heavy (a : AlertLevel) : Bool :=
  2 ≤ a.code

/-- The RAIN_ALERT line: some defined catchment stands at WARNING or SEVERE (R94). -/
def formRainAlert (catchments : Vector (Option Catchment) 8) : Bool :=
  catchments.any fun c => match c with
    | some c => c.effective.heavy
    | none => false

/-! ### Restrictions -/

/-- The trip state is TRIPPED. -/
def Guard.isTripped (g : Guard) : Bool :=
  match g.trip with
  | .tripped _ => true
  | .armed _ => false
  | .blanked _ => false

/-- The hold state is HELD. -/
def Guard.isHeld (g : Guard) : Bool :=
  match g.hold with
  | .held _ _ _ _ => true
  | .overridden _ _ => false
  | .noHold => false

/-- The hold state is OVERRIDDEN. -/
def Guard.isOverridden (g : Guard) : Bool :=
  match g.hold with
  | .overridden _ _ => true
  | .held _ _ _ _ => false
  | .noHold => false

/-- A restriction is in force (R155). -/
def Guard.restricts (g : Guard) : Bool :=
  g.isTripped || g.isHeld || g.isOverridden

/-! ### Notices and the status byte -/

/-- Some kind is pending in some entry; ATTN is asserted exactly then (R185). -/
def Notices.anyPending (n : Notices) : Bool :=
  n.allocation != 0 || n.tanks.any (fun e => e.kinds != 0) || n.catchments.any (fun e => e != 0)

/-- The code of the port state in the status byte (section 10.6). -/
def Port.code : Port → Nat
  | .idle => 0
  | .busy _ => 1
  | .reply _ => 2

/-- What a transaction that begins now takes from the state (R180, R183). -/
def State.beginning (s : State) : Beginning :=
  { port := s.port, overrun := s.overrun, attn := s.notices.attn }

/-- The status byte (R180, section 10.6): port state in bits 1 to 0, OVERRUN in bit 2, ATTN in bit 3, and 0 above. -/
def Beginning.statusByte (b : Beginning) : Byte :=
  BitVec.ofNat 8 (b.port.code + 4 * bitsOf [b.overrun, b.attn])

/-! ### Codes of the enumerations (section 10.6) -/

def Lifecycle.code : Lifecycle → Nat
  | .undefined => 0
  | .offline => 1
  | .inService => 2

def Combine.code : Combine → Nat
  | .or => 0
  | .and => 1

def Combine.ofCode : Nat → Option Combine
  | 0 => some .or
  | 1 => some .and
  | _ => none

def FaultReaction.code : FaultReaction → Nat
  | .latch => 0
  | .retry => 1

def FaultReaction.ofCode : Nat → Option FaultReaction
  | 0 => some .latch
  | 1 => some .retry
  | _ => none

def Mode.code : Mode → Nat
  | .auto => 0
  | .manual => 1

def Mode.ofCode : Nat → Option Mode
  | 0 => some .auto
  | 1 => some .manual
  | _ => none

def OpState.code : OpState → Nat
  | .awaitLevel => 0
  | .dry => 1
  | .filling => 2
  | .storing => 3
  | .draining => 4
  | .faulted => 5

def NextMark.code : NextMark → Nat
  | .noMark => 0
  | .auto => 1
  | .manual => 2

def CloseMark.code : CloseMark → Nat
  | .ended => 1
  | .lost => 2
  | .cut => 3

def StormState.code : StormState → Nat
  | .dry => 0
  | .wet => 1

def Trip.code : Trip → Nat
  | .armed _ => 0
  | .blanked _ => 1
  | .tripped _ => 2

def Hold.code : Hold → Nat
  | .noHold => 0
  | .held _ _ _ _ => 1
  | .overridden _ _ => 2

/-- A flag as a byte: clear 0, set 1. -/
def flagCode (b : Bool) : Nat :=
  if b then 1 else 0

end Sys2Proof.Machine
end

