-- ==== Sys2Proof/Machine/Ops.lean ====
section
/-! DEFINITION. The operations that several commands share: time and timers, the interpolation unit, posting notices, writing
tank records, writing orders with the effects of R130, withdrawing tanks from allocation, and taking a request. -/

namespace Sys2Proof.Machine

/-! ### Time and timers -/

/-- Device time: the seconds count, always the decisecond count divided by 10 (R188, log 17). -/
def State.now (s : State) : Nat :=
  s.ds / 10

/-- A timer started to run `seconds` from the event at count `ds` (R189). -/
def startTimer (ds seconds : Nat) : Timer :=
  some (ds + 10 * seconds)

/-- The timer runs and the count has reached its expiry (R189); no count passes an expiry that has not been taken (log 2). -/
def due (t : Timer) (ds : Nat) : Bool :=
  match t with
  | some expiry => expiry ≤ ds
  | none => false

/-- Whole seconds from the count to an expiry, rounded up (R123, R136, R156). -/
def secondsLeft (expiry ds : Nat) : Nat :=
  divUp (expiry - ds) 10

/-- Whole seconds remaining where the rule states no rounding: either whole second that encloses the exact value, as the two counts
decide, which takes in the difference of the two device times (log 9). -/
def openSecondsLeft (field : RemainingField) (expiry ds : Nat) : Nat :=
  let left := expiry - ds
  if left % 10 = 0 then left / 10
  else left / 10 + (if Config.roundsUp field expiry ds then 1 else 0)

/-- A remaining-seconds field: all ones where the timer is stopped (section 10.6). -/
def timerField (width : Nat) (t : Timer) (left : Nat → Nat) : List Byte :=
  match t with
  | some expiry => bytesOf width (left expiry)
  | none => bytesOf width (256 ^ width - 1)

/-- An event of the part has its effect only while RESET_N is not asserted (R192, log 8). -/
def whileReleased (event : State → State) (s : State) : State :=
  if s.resetAsserted then s else event s

/-! ### The interpolation unit -/

/-- The output of the interpolation unit for an input (R27). An empty table does not occur (log 19). -/
def interpolate : List Point → Nat → Nat
  | [], _ => 0
  | [p], _ => p.y
  | p :: q :: rest, x =>
    if x ≤ p.x then p.y
    else if x < q.x then p.y + (q.y - p.y) * (x - p.x) / (q.x - p.x)
    else interpolate (q :: rest) x

/-- The input lies strictly above the last point (R28). -/
def aboveLast (points : List Point) (x : Nat) : Bool :=
  match points.getLast? with
  | some p => p.x < x
  | none => false

/-! ### Notices -/

/-- What a block posts for a tank (section 10.6, tank kinds). -/
inductive TankPost where
  | stale | levelLost | stall | stallCleared | aboveTable | imminent | spillOpen
  | spillClosed (mark : CloseMark)
deriving DecidableEq, Repr

/-- What the Alert Unit posts for a catchment (section 10.6, catchment kinds). -/
inductive CatchmentPost where
  | raised | lowered | floorExpired
deriving DecidableEq, Repr

/-- What a block posts for the allocation record (section 10.6, allocation kinds). -/
inductive AllocationPost where
  | trip | tripCleared | bankChanged | budgetShed | budgetOverrun | holdEnded | holdOverridden
deriving DecidableEq, Repr

/-- The bit of a tank kind (section 10.6). -/
def TankPost.bit : TankPost → Nat
  | .stale => 0
  | .levelLost => 1
  | .stall => 2
  | .stallCleared => 3
  | .aboveTable => 4
  | .imminent => 5
  | .spillOpen => 6
  | .spillClosed _ => 7

/-- The bit of a catchment kind (section 10.6). -/
def CatchmentPost.bit : CatchmentPost → Nat
  | .raised => 0
  | .lowered => 1
  | .floorExpired => 2

/-- The bit of an allocation kind (section 10.6). -/
def AllocationPost.bit : AllocationPost → Nat
  | .trip => 0
  | .tripCleared => 1
  | .bankChanged => 2
  | .budgetShed => 3
  | .budgetOverrun => 4
  | .holdEnded => 5
  | .holdOverridden => 6

/-- ATTN follows the Notice Set (R185). -/
def Notices.settled (n : Notices) : Notices :=
  { n with attn := n.anyPending }

/-- A posting to a tank's entry: pending if its enable is set, no effect otherwise; SPILL_CLOSED carries its mark (R185). -/
def TankNotice.post (mask : BitVec 8) (e : TankNotice) (p : TankPost) : TankNotice :=
  if mask.getLsbD p.bit then
    { kinds := e.kinds ||| BitVec.twoPow 8 p.bit
      detail := match p with
        | .spillClosed mark => some mark
        | _ => e.detail }
  else e

/-- Posts to the tanks' entries, each in the order given (R185). -/
def State.postTanks (posts : Fin 32 → List TankPost) (s : State) : State :=
  { s with notices := Notices.settled { s.notices with
      tanks := Vector.ofFn fun i => (posts i).foldl (TankNotice.post s.notices.tankMask) s.notices.tanks[i] } }

/-- Posts to one tank's entry (R185). -/
def State.postTank (i : Fin 32) (posts : List TankPost) (s : State) : State :=
  s.postTanks fun j => if j = i then posts else []

/-- A posting to a catchment's entry (R185). -/
def postCatchmentEntry (mask : BitVec 3) (e : BitVec 3) (p : CatchmentPost) : BitVec 3 :=
  if mask.getLsbD p.bit then e ||| BitVec.twoPow 3 p.bit else e

/-- Posts to the catchments' entries, each in the order given (R185). -/
def State.postCatchments (posts : Fin 8 → List CatchmentPost) (s : State) : State :=
  { s with notices := Notices.settled { s.notices with
      catchments := Vector.ofFn fun i =>
        (posts i).foldl (postCatchmentEntry s.notices.catchmentMask) s.notices.catchments[i] } }

/-- Posts to the allocation record's entry (R185). -/
def State.postAllocation (p : AllocationPost) (s : State) : State :=
  { s with notices := Notices.settled { s.notices with
      allocation := if s.notices.allocationMask.getLsbD p.bit
        then s.notices.allocation ||| BitVec.twoPow 7 p.bit else s.notices.allocation } }

/-! ### Tank records -/

/-- Writes one tank's record; `none` returns it to UNDEFINED. -/
def State.setTank (i : Fin 32) (t : Option Tank) (s : State) : State :=
  { s with tanks := s.tanks.set i t }

/-- Writes every defined tank's record. -/
def State.mapTanks (f : Fin 32 → Tank → Tank) (s : State) : State :=
  { s with tanks := Vector.ofFn fun i => (s.tanks[i]).map (f i) }

/-- The tank's record with another service part, if it is IN_SERVICE. -/
def Tank.mapService (f : Service → Service) (t : Tank) : Tank :=
  { t with service := t.service.map f }

/-- Some property of a defined tank holds of the tank at an index. -/
def State.tankIs (s : State) (p : Tank → Bool) (i : Fin 32) : Bool :=
  match s.tanks[i] with
  | some t => p t
  | none => false

/-- The service part at an index, with the record it belongs to. -/
def State.serviceAt (s : State) (i : Fin 32) : Option (Tank × Service) :=
  s.tanks[i].bind fun t => t.service.map fun v => (t, v)

/-- The tank at an index is IN_SERVICE. -/
def State.inService (s : State) (i : Fin 32) : Bool :=
  (s.serviceAt i).isSome

/-- The effective level of a catchment. A defined tank always names a defined catchment (R95, log 19). -/
def State.effectiveLevel (s : State) (c : Fin 8) : AlertLevel :=
  match s.catchments[c] with
  | some c => c.effective
  | none => .noAlert

/-! ### Orders -/

/-- The sum of a quantity over all 32 tanks (R120, R131). -/
def sumTanks (f : Fin 32 → Nat) : Nat :=
  ((List.finRange 32).map f).sum

/-- An active order written: active_changed is set where the value differs (R126). -/
def OrderEntry.withActive (e : OrderEntry) (n : Nat) : OrderEntry :=
  if n = e.active then e else { e with active := n, activeChanged := true }

/-- A direction change clears both counters, and a passage to 0 makes the snapshot absent (R51). -/
def Supervisor.turn (old new : Nat) (v : Supervisor) : Supervisor :=
  if old = 0 ∧ new ≠ 0 then { v with stallCounter := 0, goodCounter := 0 }
  else if old ≠ 0 ∧ new = 0 then { v with stallCounter := 0, goodCounter := 0, snapshot := none }
  else v

/-- What a change of its active order does to a tank's service part: direction change and op state (R130). -/
def Service.activeChange (d : TankDef) (old new : Nat) (v : Service) : Service :=
  if old = new then v
  else { v with
    supervisor := v.supervisor.turn old new
    op := formOp d v.level (v.supervisor.turn old new) new }

/-- Writes every tank's active order, with the effects of R130 where it changes. -/
def State.writeActive (new : Fin 32 → Nat) (s : State) : State :=
  { s with
    orders := Vector.ofFn fun i => (s.orders[i]).withActive (new i)
    tanks := Vector.ofFn fun i =>
      (s.tanks[i]).map fun t => t.mapService (Service.activeChange t.defn s.orders[i].active (new i)) }

/-- Writes every tank's next order; the marks stand. A change of a next order has no further effect (R130). -/
def State.writeNext (new : Fin 32 → Nat) (s : State) : State :=
  { s with orders := Vector.ofFn fun i => { s.orders[i] with next := new i } }

/-- An immediate zeroing of both orders of the tanks at which `p` holds (R132). -/
def State.zeroOrders (p : Fin 32 → Bool) (s : State) : State :=
  (s.writeActive fun i => if p i then 0 else s.orders[i].active).writeNext
    fun i => if p i then 0 else s.orders[i].next

/-- Removes tanks from the run order list; the others close up in their order (R117). -/
def State.delist (p : Fin 32 → Bool) (s : State) : State :=
  { s with alloc := { s.alloc with runOrder := s.alloc.runOrder.filter fun i => !p i } }

/-- Zeroes both orders of tanks and removes them from the run order list (R15, R18). -/
def State.withdraw (p : Fin 32 → Bool) (s : State) : State :=
  (s.zeroOrders p).delist p

/-! ### Inhibit -/

/-- The tank's effective inhibit formed anew from the lines (R13). -/
def Tank.formInhibit (lines : Vector Bool 4) (t : Tank) : Tank :=
  { t with inhibited := Machine.formInhibit t.defn.combine lines[t.defn.zone] t.softInhibit }

/-- Forms the effective inhibit of the tanks at which `p` holds; where it rises on an IN_SERVICE tank, both orders are zeroed
and the tank leaves the run order list (R13, R15). -/
def State.formInhibits (p : Fin 32 → Bool) (s : State) : State :=
  let rises := fun i => p i && s.tankIs (fun t => t.service.isSome && !t.inhibited &&
    (t.formInhibit s.pins.zinh).inhibited) i
  (s.mapTanks fun i t => if p i then t.formInhibit s.pins.zinh else t).withdraw rises

/-! ### Requests -/

/-- An owner's answer to a request: status, payload and the state it leaves. -/
structure Answer where
  status : Status
  payload : List Byte
  state : State

/-- A refused request changes nothing but the reply, and carries length 0 (R181, section 10.2). -/
def refuse (status : Status) (s : State) : Answer :=
  { status := status, payload := [], state := s }

/-- An accepted request. -/
def accept (payload : List Byte) (s : State) : Answer :=
  { status := .ok, payload := payload, state := s }

/-- A request is taken whole at the end of BUSY, when it is the request in hand; its reply is stored with its tag and the port
state becomes REPLY (R181). A request that is not in hand is no event of the part (log 3). -/
def serve (command : Instr) (owner : State → Answer) (s : State) : State :=
  if s.resetAsserted then s
  else match s.port with
    | .busy (.request tag inHand) =>
      if inHand = command then
        { (owner s).state with port := .reply { tag := tag, status := (owner s).status, payload := (owner s).payload } }
      else s
    | .busy (.refused _ _) => s
    | .idle => s
    | .reply _ => s

/-- An index within its range, as the index it is. -/
def indexIn (n i : Nat) : Option (Fin n) :=
  if h : i < n then some ⟨i, h⟩ else none

end Sys2Proof.Machine
end

