-- ==== Sys2Proof/Machine/Spill.lean ====
section
/-! DEFINITION. The Spill Accountant (spec 09): candidates, events, counting, closes, RESET_COUNTS and READ_SPILL. -/

namespace Sys2Proof.Machine

/-- The spill state of a tank after an event, with the notices it posts. -/
structure SpillStep where
  book : SpillBook
  spilling : Spilling
  posts : List TankPost
deriving DecidableEq, Repr

/-- Counters at 0, no window, no last close (R159). -/
def SpillBook.fresh : SpillBook :=
  { counters := { begun := 0, counted := 0, seconds := 0, litres := 0, restricted := 0 }, window := none, lastClose := none }

/-- The litres after one more interval, its length limited to the report timeout (R165). -/
def integrate (litres rate previous report timeout : Nat) : Nat :=
  satAdd max32 litres (rate * min (report - previous) timeout)

/-- The fold of a closed event into the tank's counters, window and last close (R169). -/
def SpillBook.close (mark : CloseMark) (stop : Nat) (e : SpillEvent) (b : SpillBook) : SpillBook :=
  { counters := { b.counters with
      seconds := satAdd max32 b.counters.seconds (stop - e.accountedFrom)
      litres := satAdd max48 b.counters.litres e.litres
      restricted := if e.restricted then satAdd max16 b.counters.restricted 1 else b.counters.restricted }
    window := b.window.map fun w => { w with stop := max w.stop stop }
    lastClose := some { mark := mark, start := e.start, stop := stop, seconds := stop - e.accountedFrom,
                        litres := e.litres, restricted := e.restricted } }

/-- The start lies before the end of a present window, so the opening is merged (R164). -/
def withinWindow (start : Nat) (w : Option Window) : Bool :=
  match w with
  | some w => start < w.stop
  | none => false

/-- A confirmed candidate becomes an open event (R163), counted with a new window or merged within the present one (R164). -/
def openEvent (hours : Nat) (restricted : Bool) (alert : AlertLevel) (c : Candidate) (b : SpillBook) : SpillStep :=
  let merged := withinWindow c.start b.window
  { book := { b with
      counters := { b.counters with
        begun := satAdd max16 b.counters.begun 1
        counted := if merged then b.counters.counted else satAdd max16 b.counters.counted 1 }
      window := if merged then b.window else some { start := c.start, stop := c.start + hours * 3600 } }
    spilling := .event
      { start := c.start, accountedFrom := c.start, litres := c.litres, peakHead := c.peakHead,
        previousRate := c.previousRate, previousReport := c.previousReport,
        mark := if merged then .merged else .counted, restricted := restricted, alertAtOpen := alert, peakAlert := alert,
        quietStart := none }
    posts := [.spillOpen] }

/-- The confirmation test of a candidate at a report (R161, R162). -/
def confirm (d : TankDef) (hours : Nat) (restricted : Bool) (alert : AlertLevel) (report : Nat) (c : Candidate)
    (b : SpillBook) : SpillStep :=
  if c.start + d.confirmTime ≤ report then openEvent hours restricted alert c b
  else { book := b, spilling := .candidate c, posts := [] }

/-- The quiet run of an open event at a report, after integration and peaks (R167, R168). -/
def quietRun (d : TankDef) (level report : Nat) (e : SpillEvent) (b : SpillBook) : SpillStep :=
  if level ≤ endThreshold d then
    match e.quietStart with
    | none => { book := b, spilling := .event { e with quietStart := some report }, posts := [] }
    | some q =>
      if q + d.quietTime ≤ report then { book := b.close .ended q e, spilling := .quiet, posts := [.spillClosed .ended] }
      else { book := b, spilling := .event e, posts := [] }
  else { book := b, spilling := .event { e with quietStart := none }, posts := [] }

/-- Handling of an accepted report, by the first case of R160 that applies. -/
def spillReport (d : TankDef) (rating : List Point) (hours : Nat) (restricted : Bool) (alert : AlertLevel)
    (level report : Nat) (spilling : Spilling) (b : SpillBook) : SpillStep :=
  let head := headOf d level
  let rate := interpolate rating head
  match spilling with
  | .event e =>
    quietRun d level report
      { e with
        litres := integrate e.litres e.previousRate e.previousReport report d.reportTimeout
        previousRate := rate
        previousReport := report
        peakHead := max e.peakHead head
        peakAlert := e.peakAlert.greater alert } b
  | .candidate c =>
    if level ≤ d.crestLevel then { book := b, spilling := .quiet, posts := [] }
    else confirm d hours restricted alert report
      { c with
        litres := integrate c.litres c.previousRate c.previousReport report d.reportTimeout
        previousRate := rate
        previousReport := report
        peakHead := max c.peakHead head } b
  | .quiet =>
    if level ≤ d.crestLevel then { book := b, spilling := .quiet, posts := [] }
    else confirm d hours restricted alert report
      { start := report, litres := 0, previousRate := rate, previousReport := report, peakHead := head } b

/-- A close that no report makes, LOST or CUT: the end is the tank's last report time, and a candidate is dropped with nothing
counted (R170, R171). -/
def closeAtLastReport (mark : CloseMark) (v : Service) (b : SpillBook) : SpillStep :=
  match v.spilling with
  | .event e =>
    { book := b.close mark (v.level.lastReport.getD e.previousReport) e, spilling := .quiet, posts := [.spillClosed mark] }
  | .candidate _ => { book := b, spilling := .quiet, posts := [] }
  | .quiet => { book := b, spilling := .quiet, posts := [] }

/-- The restricted flag set on an open event (R155, R172). -/
def Spilling.restrict : Spilling → Spilling
  | .event e => .event { e with restricted := true }
  | .candidate c => .candidate c
  | .quiet => .quiet

/-- The restricted flag set on every open event of every tank (R155). -/
def State.flagSpills (s : State) : State :=
  s.mapTanks fun _ t => t.mapService fun v => { v with spilling := v.spilling.restrict }

/-! ### RESET_COUNTS -/

/-- A tank after RESET_COUNTS, with the old counters and whether an event was split. -/
structure CountsReset where
  old : SpillCounters
  split : Bool
  tank : Tank
deriving DecidableEq, Repr

/-- The open event of a tank, if any. -/
def Tank.openSpill (t : Tank) : Option SpillEvent :=
  match t.service with
  | some v => match v.spilling with
    | .event e => some e
    | .candidate _ => none
    | .quiet => none
  | none => none

/-- RESET_COUNTS on one defined tank (R175, steps 1 to 5). -/
def Tank.resetCounts (now hours : Nat) (t : Tank) : CountsReset :=
  match t.openSpill with
  | some e =>
    { old := { t.book.counters with
        seconds := satAdd max32 t.book.counters.seconds (now - e.accountedFrom)
        litres := satAdd max48 t.book.counters.litres e.litres }
      split := true
      tank := { (t.mapService fun v => { v with
            spilling := .event { e with accountedFrom := now, litres := 0, mark := .counted } }) with
        book := { t.book with
          counters := { begun := 1, counted := 1, seconds := 0, litres := 0, restricted := 0 }
          window := some { start := e.start, stop := max (e.start + hours * 3600) now } } } }
  | none =>
    { old := t.book.counters
      split := false
      tank := { t with book := { t.book with
        counters := { begun := 0, counted := 0, seconds := 0, litres := 0, restricted := 0 }, window := none } } }

/-- The five counters as bytes (section 10.6, RETIRE_TANK reply). -/
def SpillCounters.bytes (c : SpillCounters) : List Byte :=
  joinFields [2, 2, 4, 6, 2] [c.begun, c.counted, c.seconds, c.litres, c.restricted]

/-- RESET_COUNTS of one tank (R175). -/
def answerResetCounts (tank : Nat) (s : State) : Answer :=
  match indexIn 32 tank with
  | none => refuse .badIndex s
  | some i =>
    match s.tanks[i] with
    | none => refuse .notDefined s
    | some t =>
      let r := t.resetCounts s.now s.windowHours
      accept (r.old.bytes ++ bytesOf 1 (flagCode r.split)) (s.setTank i (some r.tank))

def execResetCounts (tank : Nat) (s : State) : Host.Outcome State Fault Refusal :=
  .next (serve (.resetCounts tank) (answerResetCounts tank) s)

/-- The sum of one old counter over every defined tank (R176). -/
def sumOldCounters (field : SpillCounters → Nat) (s : State) : Nat :=
  sumTanks fun i => match s.tanks[i] with
    | some t => field (t.resetCounts s.now s.windowHours).old
    | none => 0

/-- RESET_COUNTS with ALL, on every defined tank at the one device time (R176). -/
def answerResetCountsAll (s : State) : Answer :=
  let tanks := sumTanks fun i => if s.tankIs (fun _ => true) i then 1 else 0
  let split := sumTanks fun i => if s.tankIs (fun t => t.openSpill.isSome) i then 1 else 0
  let sums : SpillCounters :=
    { begun := min max16 (sumOldCounters SpillCounters.begun s)
      counted := min max16 (sumOldCounters SpillCounters.counted s)
      seconds := min max32 (sumOldCounters SpillCounters.seconds s)
      litres := min max48 (sumOldCounters SpillCounters.litres s)
      restricted := min max16 (sumOldCounters SpillCounters.restricted s) }
  accept (bytesOf 1 tanks ++ bytesOf 1 split ++ sums.bytes)
    (s.mapTanks fun _ t => (t.resetCounts s.now s.windowHours).tank)

def execResetCountsAll (s : State) : Host.Outcome State Fault Refusal :=
  .next (serve .resetCountsAll answerResetCountsAll s)

/-! ### READ_SPILL -/

/-- What a tank holds of a present spill; an OFFLINE tank holds nothing (R159). -/
def Tank.spilling (t : Tank) : Spilling :=
  match t.service with
  | some v => v.spilling
  | none => .quiet

/-- The candidate part of READ_SPILL, bytes 19 to 34; 0 where absent (section 10.6). -/
def Spilling.candidateBytes : Spilling → List Byte
  | .candidate c =>
    joinFields [4, 4, 2, 4, 2] [c.start, c.litres, c.previousRate, c.previousReport, c.peakHead]
  | .event _ => List.replicate 16 0
  | .quiet => List.replicate 16 0

/-- The event part of READ_SPILL, bytes 35 to 59; 0 where absent (section 10.6). -/
def Spilling.eventBytes : Spilling → List Byte
  | .event e =>
    joinFields [4, 4, 4, 2, 2, 4, 1, 4]
      [e.start, e.accountedFrom, e.litres, e.peakHead, e.previousRate, e.previousReport,
       bitsOf [e.mark == .merged, e.restricted] + 4 * e.alertAtOpen.code + 16 * e.peakAlert.code, e.quietStart.getD 0]
  | .candidate _ => List.replicate 25 0
  | .quiet => List.replicate 25 0

/-- A candidate is present. -/
def Spilling.hasCandidate : Spilling → Bool
  | .candidate _ => true
  | .event _ => false
  | .quiet => false

/-- An open event is present. -/
def Spilling.hasEvent : Spilling → Bool
  | .event _ => true
  | .candidate _ => false
  | .quiet => false

/-- An open event with a quiet run is present. -/
def Spilling.hasQuietStart : Spilling → Bool
  | .event e => e.quietStart.isSome
  | .candidate _ => false
  | .quiet => false

/-- The window part of READ_SPILL, bytes 60 to 67. -/
def windowBytes : Option Window → List Byte
  | some w => joinFields [4, 4] [w.start, w.stop]
  | none => List.replicate 8 0

/-- The last close part of READ_SPILL, bytes 68 to 84. -/
def lastCloseBytes : Option LastClose → List Byte
  | some c => joinFields [1, 4, 4, 4, 4] [c.mark.code + 4 * flagCode c.restricted, c.start, c.stop, c.seconds, c.litres]
  | none => List.replicate 17 0

/-- The payload of READ_SPILL for a defined tank (R177, section 10.6, 87 bytes). -/
def Tank.spillPayload (i : Fin 32) (now : Nat) (t : Tank) : List Byte :=
  joinFields [1, 1, 1] [i, 1, bitsOf [t.spilling.hasCandidate, t.spilling.hasEvent, t.spilling.hasQuietStart,
    t.book.window.isSome, withinWindow now t.book.window, t.book.lastClose.isSome]] ++
  t.book.counters.bytes ++ t.spilling.candidateBytes ++ t.spilling.eventBytes ++ windowBytes t.book.window ++
  lastCloseBytes t.book.lastClose ++ bytesOf 2 (endThreshold t.defn)

/-- READ_SPILL (R177). -/
def answerReadSpill (tank : Nat) (s : State) : Answer :=
  match indexIn 32 tank with
  | none => refuse .badIndex s
  | some i =>
    match s.tanks[i] with
    | none => accept (List.replicate 87 0) s
    | some t => accept (t.spillPayload i s.now) s

def execReadSpill (tank : Nat) (s : State) : Host.Outcome State Fault Refusal :=
  .next (serve (.readSpill tank) (answerReadSpill tank) s)

end Sys2Proof.Machine
end

