-- ==== Sys2Proof/Machine/Levels.lean ====
section
/-! DEFINITION. The Level Processor (spec 02): REPORT_LEVEL and the stale expiry. -/

namespace Sys2Proof.Machine

/-- The Level Processor's state at entry into service and after CLEAR_STATE (R8, R45). -/
def LevelState.fresh : LevelState :=
  { lastLevel := none, lastReport := none, clamped := false, aboveTable := false, stale := false, volume := none,
    previous := none, netRate := none, timeToSpill := .absent, imminent := false, staleTimer := none, expiries := 0 }

/-- The report time: arrival less the clamped age, or 0 where the age exceeds device time (R23). -/
def reportTime (now age : Nat) : Nat :=
  now - min age 3600

/-- The report is at or before the tank's last report (R22, R23). -/
def isOldReport (l : LevelState) (report : Nat) : Bool :=
  match l.lastReport with
  | some last => report ≤ last
  | none => false

/-- The points of a tank's stage-storage table. -/
def Tank.stagePoints (t : Tank) : List Point :=
  match t.stage with
  | some st => st.points
  | none => []

/-- The net rate after a report: no sample at the first, then the smoothed rate (R31 to R33). -/
def LevelState.nextRate (l : LevelState) (volume report : Nat) : Option Int :=
  match l.previous with
  | none => l.netRate
  | some p => some (smoothRate l.netRate (rateSample volume p.volume (report - p.time)))

/-- Steps 1 to 5 of an accepted report on the Level Processor's state (R25). -/
def LevelState.report (t : Tank) (threshold ds level report : Nat) (l : LevelState) : LevelState :=
  let used := min level 30000
  let volume := interpolate t.stagePoints used
  let rate := l.nextRate volume report
  let spillTime := formTimeToSpill used volume rate t.defn.crestLevel ((t.stage.map StageTable.vCrest).getD 0)
  { lastLevel := some used
    lastReport := some report
    clamped := 30000 < level
    aboveTable := aboveLast t.stagePoints used
    stale := false
    volume := some volume
    previous := some { volume := volume, time := report }
    netRate := rate
    timeToSpill := spillTime
    imminent := formImminent spillTime threshold
    staleTimer := startTimer ds t.defn.reportTimeout
    expiries := 0 }

/-- The notices of the level steps: ABOVE_TABLE and IMMINENT where the flag passes from clear to set (R30, R36). -/
def LevelState.posts (old new : LevelState) : List TankPost :=
  (if new.aboveTable && !old.aboveTable then [.aboveTable] else []) ++
  (if new.imminent && !old.imminent then [.imminent] else [])

/-- What an accepted report leaves of a tank, with the notices it posts. -/
structure TankStep where
  tank : Tank
  posts : List TankPost
deriving DecidableEq, Repr

/-- An accepted report taken whole, in the order of R25 and R42. -/
def Tank.report (s : State) (i : Fin 32) (level report : Nat) (t : Tank) (v : Service) : TankStep :=
  let l := v.level.report t s.alloc.imminentThreshold s.ds level report
  let lostStands := v.supervisor.levelLost && t.defn.faultReaction == .latch
  let sup := { v.supervisor with levelLost := lostStands, reportMark := true }
  let spill := spillReport t.defn (t.rating.getD []) s.windowHours s.guard.restricts
    (s.effectiveLevel t.defn.catchment) (min level 30000) report v.spilling t.book
  { tank := { t with
      book := spill.book
      service := some
        { op := formOp t.defn l sup s.orders[i].active, level := l, supervisor := sup, spilling := spill.spilling } }
    posts := v.level.posts l ++ spill.posts }

/-- The time-to-spill field: all ones for NONE, which stands also for absent (R43, section 10.6). -/
def TimeToSpill.bytes : TimeToSpill → List Byte
  | .seconds n => bytesOf 4 n
  | .never => bytesOf 4 max32
  | .absent => bytesOf 4 max32

/-- Bytes 45 to 63 of the READ_TANK layout, which are also the REPORT_LEVEL reply (R26, R43, section 10.6). -/
def LevelState.bytes (l : LevelState) : List Byte :=
  joinFields [2, 4, 1, 4] [l.lastLevel.getD 0, l.lastReport.getD 0,
    bitsOf [l.lastLevel.isSome, l.netRate.isSome, l.clamped, l.aboveTable, l.stale, l.imminent], l.volume.getD 0] ++
  signedBytesOf 4 (l.netRate.getD 0) ++ l.timeToSpill.bytes

/-- The level state that READ_TANK and replies show for a tank: that of an OFFLINE tank is fresh (R43). -/
def Tank.levelState (t : Tank) : LevelState :=
  match t.service with
  | some v => v.level
  | none => LevelState.fresh

/-- REPORT_LEVEL (R22 to R26, R42). -/
def answerReportLevel (tank level age : Nat) (s : State) : Answer :=
  match indexIn 32 tank with
  | none => refuse .badIndex s
  | some i =>
    match s.serviceAt i with
    | none => refuse .notInService s
    | some (t, v) =>
      if isOldReport v.level (reportTime s.now age) then refuse .oldReport s
      else
        let r := t.report s i level (reportTime s.now age) v
        accept r.tank.levelState.bytes ((s.setTank i (some r.tank)).postTank i r.posts)

def execReportLevel (tank level age : Nat) (s : State) : Host.Outcome State Fault Refusal :=
  .next (serve (.reportLevel tank level age) (answerReportLevel tank level age) s)

/-- The Level Processor's state after a stale expiry (R38). -/
def LevelState.expire (d : TankDef) (ds : Nat) (l : LevelState) : LevelState :=
  { l with stale := true, expiries := min d.lostLimit (l.expiries + 1), staleTimer := startTimer ds d.reportTimeout }

/-- A stale expiry of a tank: STALE and the count; where the count is at lost_limit and LEVEL_LOST is clear, LEVEL_LOST is
raised, the tank becomes FAULTED and leaves allocation, and its spill is closed LOST (R38, R39, R170). -/
def staleEvent (i : Fin 32) (s : State) : State :=
  match s.serviceAt i with
  | none => s
  | some (t, v) =>
    if due v.level.staleTimer s.ds then
      let l := v.level.expire t.defn s.ds
      if l.expiries = t.defn.lostLimit ∧ v.supervisor.levelLost = false then
        let sup := { v.supervisor with levelLost := true }
        let spill := closeAtLastReport .lost v t.book
        let lost := { t with
          book := spill.book
          service := some
            { op := formOp t.defn l sup s.orders[i].active, level := l, supervisor := sup, spilling := spill.spilling } }
        ((s.setTank i (some lost)).postTank i ([.stale, .levelLost] ++ spill.posts)).withdraw fun j => j == i
      else (s.setTank i (some { t with service := some { v with level := l } })).postTank i [.stale]
    else s

def execStaleExpiry (tank : Fin 32) (s : State) : Host.Outcome State Fault Refusal :=
  .next (whileReleased (staleEvent tank) s)

end Sys2Proof.Machine
end

