-- ==== Sys2Proof/Machine/Supervision.lean ====
section
/-! DEFINITION. The Drain Supervisor (spec 03): stall evaluation, snapshots and CLEAR_FAULT. -/

namespace Sys2Proof.Machine

/-- The Drain Supervisor's state at entry to service (R46). -/
def Supervisor.fresh : Supervisor :=
  { stallCounter := 0, goodCounter := 0, snapshot := none, reportMark := false, stall := false, levelLost := false }

/-- The three outcomes of a tank's evaluation (R49). -/
inductive Evidence where
  | without | good | stall
deriving DecidableEq, Repr

/-- The outcome for a report mark, a snapshot and the latest level; the difference is signed (R49). -/
def judgePeriod (fallMin : Nat) (mark : Bool) (snapshot level : Option Nat) : Evidence :=
  match mark, snapshot, level with
  | true, some before, some after => if (fallMin : Int) ≤ (before : Int) - after then .good else .stall
  | _, _, _ => .without

/-- What the evaluation of one ordered tank leaves of its supervisor state, with the notices it posts (R49, R52, R54). -/
def Supervisor.evaluate (d : TankDef) (level : Option Nat) (v : Supervisor) : Supervisor × List TankPost :=
  match judgePeriod d.fallMin v.reportMark v.snapshot level with
  | .without => (v, [])
  | .good =>
    let good := satAdd d.stallCount v.goodCounter 1
    if good = d.stallCount ∧ v.stall = true ∧ d.faultReaction = .retry then
      ({ v with stallCounter := 0, goodCounter := good, stall := false }, [.stallCleared])
    else ({ v with stallCounter := 0, goodCounter := good }, [])
  | .stall =>
    let stalls := satAdd d.stallCount v.stallCounter 1
    if stalls = d.stallCount ∧ v.stall = false then
      ({ v with stallCounter := stalls, goodCounter := 0, stall := true }, [.stall])
    else ({ v with stallCounter := stalls, goodCounter := 0 }, [])

/-- The supervisor state after the stall evaluation stage: evaluated where the active order is above 0 (R48), and the report
mark cleared in either case (R47). -/
def Service.evaluated (d : TankDef) (active : Nat) (v : Service) : Supervisor × List TankPost :=
  let e := if 0 < active then v.supervisor.evaluate d v.level.lastLevel else (v.supervisor, [])
  ({ e.1 with reportMark := false }, e.2)

/-- The service part after the stall evaluation stage; the op state is formed anew where STALL is set or cleared (R17). -/
def Service.afterStall (d : TankDef) (active : Nat) (v : Service) : Service :=
  let sup := (v.evaluated d active).1
  { v with
    supervisor := sup
    op := if sup.stall = v.supervisor.stall then v.op else formOp d v.level sup active }

/-- STALL is raised on the tank under LATCH in this stage, so the tank becomes FAULTED (R52). -/
def Service.stallLatches (d : TankDef) (active : Nat) (v : Service) : Bool :=
  (v.evaluated d active).1.stall && !v.supervisor.stall && d.faultReaction == .latch

/-- Stall evaluation, the first stage of an allocation run (R48, R49, R52, R54). -/
def stallStage (s : State) : State :=
  let posts := fun i => match s.serviceAt i with
    | some (t, v) => (v.evaluated t.defn s.orders[i].active).2
    | none => []
  let latches := fun i => match s.serviceAt i with
    | some (t, v) => v.stallLatches t.defn s.orders[i].active
    | none => false
  ((s.mapTanks fun i t => t.mapService (Service.afterStall t.defn s.orders[i].active)).postTanks posts).withdraw latches

/-- The snapshot of an ordered tank is its last accepted level, retaken after each promotion (R50). -/
def State.takeSnapshots (s : State) : State :=
  s.mapTanks fun i t => t.mapService fun v =>
    if 0 < s.orders[i].active then { v with supervisor := { v.supervisor with snapshot := v.level.lastLevel } } else v

/-- The op state byte of a tank: 255 where it has none (section 10.6). -/
def Tank.opCode (t : Tank) : Nat :=
  match t.service with
  | some v => v.op.code
  | none => 255

/-- The service part after an accepted CLEAR_FAULT on a tank that holds a fault (R57). -/
def Service.clearFaults (d : TankDef) (active : Nat) (v : Service) : Service :=
  let sup := { v.supervisor with stallCounter := 0, goodCounter := 0, stall := false, levelLost := false }
  { v with supervisor := sup, op := formOp d v.level sup active }

/-- CLEAR_FAULT (R56, R57). -/
def answerClearFault (tank : Nat) (s : State) : Answer :=
  match indexIn 32 tank with
  | none => refuse .badIndex s
  | some i =>
    match s.tanks[i] with
    | none => refuse .notDefined s
    | some t =>
      match t.service with
      | none => refuse .notInService s
      | some v =>
        if v.supervisor.stall || v.supervisor.levelLost then
          let w := v.clearFaults t.defn s.orders[i].active
          accept (bytesOf 1 (bitsOf [v.supervisor.stall, v.supervisor.levelLost]) ++ bytesOf 1 w.op.code)
            (s.setTank i (some { t with service := some w }))
        else accept (bytesOf 1 0 ++ bytesOf 1 v.op.code) s

def execClearFault (tank : Nat) (s : State) : Host.Outcome State Fault Refusal :=
  .next (serve (.clearFault tank) (answerClearFault tank) s)

end Sys2Proof.Machine
end

