-- ==== Sys2Proof/Machine/TripMachine.lean ====
section
/-! DEFINITION. The trip machine of the Intake Guard (spec 08, section 8.1) as far as no extra run follows: entries into its
states, the news of a promotion, the line, the filter expiry and the blank expiry. -/

namespace Sys2Proof.Machine

/-- The tank is IN_SERVICE with AUTO in force (R133). -/
def State.autoInService (s : State) (i : Fin 32) : Bool :=
  s.tankIs (fun t => t.service.isSome && t.inForce.mode == .auto) i

/-- The trip state set. -/
def State.setTrip (t : Trip) (s : State) : State :=
  { s with guard := { s.guard with trip := t } }

/-- Entry into TRIPPED: the trip count, the zeroing of both orders of every IN_SERVICE tank in AUTO in force, the restricted
flags, TRIP, and the off-timer (R143, R133, R155). The run order list stands. -/
def enterTripped (s : State) : State :=
  let zeroed := ({ s with guard := { s.guard with
    trip := .tripped (s.ds + 10 * s.guard.offTime), tripCount := satAdd max16 s.guard.tripCount 1 } }).zeroOrders
      s.autoInService
  zeroed.flagSpills.postAllocation .trip

/-- The filter timer is started in ARMED; with F at 0 it completes within the event (R142, R143). -/
def startFilter (s : State) : State :=
  if s.guard.filterTime = 0 then enterTripped s
  else s.setTrip (.armed (startTimer s.ds s.guard.filterTime))

/-- Entry into ARMED: the filter starts at once if the line is asserted (R142, R145). -/
def enterArmed (s : State) : State :=
  if s.guard.lineHigh then startFilter (s.setTrip (.armed none)) else s.setTrip (.armed none)

/-- The trip state becomes BLANKED with the blank timer running for S (R144, R147). -/
def enterBlanked (s : State) : State :=
  s.setTrip (.blanked (s.ds + 10 * s.guard.blankTime))

/-- News from a promotion that the sum of active orders rose (R144). -/
def sumRose (s : State) : State :=
  match s.guard.trip with
  | .armed _ => if s.guard.blankTime = 0 then s else enterBlanked s
  | .blanked _ => if s.guard.blankTime = 0 then enterArmed s else enterBlanked s
  | .tripped _ => s

/-- A change of INTAKE_HIGH at the Intake Guard: the level is recorded, and in ARMED the filter is started or discarded
(R140, R142). -/
def intakeEvent (asserted : Bool) (s : State) : State :=
  let recorded := { s with guard := { s.guard with lineHigh := asserted } }
  match s.guard.trip with
  | .armed _ => if asserted then startFilter recorded else recorded.setTrip (.armed none)
  | .blanked _ => recorded
  | .tripped _ => recorded

/-- The command is a change of level of INTAKE_HIGH; the pin follows also while RESET_N is asserted (logs 4 and 8). -/
def execIntakeHighChange (asserted : Bool) (s : State) : Host.Outcome State Fault Refusal :=
  .next (if s.pins.intakeHigh = asserted then s
    else whileReleased (intakeEvent asserted) { s with pins := { s.pins with intakeHigh := asserted } })

/-- The filter expiry (R143). -/
def filterEvent (s : State) : State :=
  match s.guard.trip with
  | .armed filter => if due filter s.ds then enterTripped s else s
  | .blanked _ => s
  | .tripped _ => s

def execFilterExpiry (s : State) : Host.Outcome State Fault Refusal :=
  .next (whileReleased filterEvent s)

/-- The blank expiry (R145). -/
def blankEvent (s : State) : State :=
  match s.guard.trip with
  | .blanked expiry => if expiry ≤ s.ds then enterArmed s else s
  | .armed _ => s
  | .tripped _ => s

def execBlankExpiry (s : State) : Host.Outcome State Fault Refusal :=
  .next (whileReleased blankEvent s)

end Sys2Proof.Machine
end

