-- ==== Sys2Proof/Machine/Allocation.lean ====
section
/-! DEFINITION. The Allocator's computation, promotion, allocation run and shed (specs 06 and 07), as shared operations. -/

namespace Sys2Proof.Machine

/-! ### The computation (R109 to R116) -/

/-- The available budget A0 (R110). -/
def availableBudget (s : State) : Nat :=
  if s.guard.isTripped || s.guard.isHeld then 0
  else if s.guard.isOverridden then min s.alloc.budget s.alloc.overrideBudget
  else s.alloc.budget

/-- The tank at an index is a granted manual tank (R111). -/
def State.grantedManual (s : State) (i : Fin 32) : Bool :=
  match s.serviceAt i with
  | some (t, v) => t.pendingMode.mode == .manual && v.op != .faulted && !t.inhibited
  | none => false

/-- The manual value written for the tank at an index (R111). -/
def State.manualOrder (s : State) (i : Fin 32) : Nat :=
  if s.grantedManual i then
    match s.tanks[i] with
    | some t => t.pendingMode.value
    | none => 0
  else 0

/-- M, the sum of the next orders of the granted manual tanks (R111). -/
def State.manualTotal (s : State) : Nat :=
  sumTanks s.manualOrder

/-- The volume lies above V_dry (R112). -/
def aboveDry (t : Tank) (v : Service) : Bool :=
  match v.level.volume, t.stage with
  | some volume, some st => st.vDry < volume
  | _, _ => false

/-- The tank at an index is eligible for an automatic grant (R112). -/
def State.eligible (s : State) (i : Fin 32) : Bool :=
  match s.serviceAt i with
  | some (t, v) =>
    t.pendingMode.mode == .auto && t.inForce.mode == .auto && v.op != .awaitLevel && v.op != .faulted &&
      !t.inhibited && aboveDry t v
  | none => false

/-- The ordinary demand: the volume above dry level spread over one period, at least Rmin, at most Rmax (R113). -/
def ordinaryDemand (period : Nat) (t : Tank) (v : Service) : Nat :=
  let above := v.level.volume.getD 0 - (t.stage.map StageTable.vDry).getD 0
  min t.defn.rMax (max (divUp (above * 100) period) t.defn.rMin)

/-- The demand D, limited to the probe rate while STALL is set under RETRY (R53, R113). -/
def demand (period : Nat) (t : Tank) (v : Service) : Nat :=
  if v.supervisor.stall && t.defn.faultReaction == .retry then min (ordinaryDemand period t v) (probeRate t.defn)
  else ordinaryDemand period t v

/-- The class of a tank (R114). -/
def tankClass (s : State) (t : Tank) (v : Service) : Nat :=
  if v.spilling.hasCandidate || v.spilling.hasEvent || v.level.imminent then 0
  else if (s.effectiveLevel t.defn.catchment).heavy then 1
  else 2

/-- The place of a tank in grant order: class, then base_priority, then index, as one number (R115). -/
def State.grantKey (s : State) (i : Fin 32) : Nat :=
  match s.serviceAt i with
  | some (t, v) => (tankClass s t v * 16 + t.defn.basePriority) * 32 + i
  | none => 0

/-- The eligible tanks in grant order (R115). -/
def State.grantOrder (s : State) : List (Fin 32) :=
  ((List.finRange 32).filter s.eligible).insertionSort fun i j => s.grantKey i ≤ s.grantKey j

/-- The grant of one tank out of the remaining budget, steps 1 to 3 of R116: the demand, the guard band for a new start, and
nothing below Rmin. -/
def grantAmount (demand remaining guardBand active rMin : Nat) : Nat :=
  let first := min demand remaining
  let guarded := if active = 0 then min first (remaining - guardBand) else first
  if guarded < rMin then 0 else guarded

/-- The grant of the tank at an index out of the remaining budget (R116). -/
def State.grantFor (s : State) (i : Fin 32) (remaining : Nat) : Nat :=
  match s.serviceAt i with
  | some (t, v) =>
    grantAmount (demand s.alloc.period t v) remaining s.alloc.guardBand s.orders[i].active t.defn.rMin
  | none => 0

/-- Amounts per tank while a walk goes through the tanks, with the quantity the walk keeps account of. -/
structure Walk where
  amounts : Vector Nat 32
  account : Nat
deriving DecidableEq, Repr

/-- Step 4 of R116 for one tank: the grant is written and taken from the remaining budget. -/
def State.grantStep (s : State) (w : Walk) (i : Fin 32) : Walk :=
  { amounts := w.amounts.set i (s.grantFor i w.account), account := w.account - s.grantFor i w.account }

/-- The grants in grant order, starting with the automatic budget (R116). -/
def State.grantWalk (s : State) (order : List (Fin 32)) (budget : Nat) : Walk :=
  order.foldl s.grantStep { amounts := Vector.replicate 32 0, account := budget }

/-- The order value a computation writes for an IN_SERVICE tank: its manual value or its grant (R111, R116). -/
def State.writtenOrder (s : State) (grants : Vector Nat 32) (i : Fin 32) (t : Tank) : Nat :=
  match t.pendingMode.mode with
  | .manual => s.manualOrder i
  | .auto => grants[i]

/-- The mark of a mode (R109). -/
def Mode.mark : Mode → NextMark
  | .auto => .auto
  | .manual => .manual

/-- The Order Buffer's entry after a computation: 0 with no mark for a tank that is not IN_SERVICE (R109, R126); the value
written with the pending mode's mark otherwise, stored as 0 while TRIPPED for a tank in AUTO in force (R128). -/
def State.computedEntry (s : State) (grants : Vector Nat 32) (i : Fin 32) : OrderEntry :=
  match s.serviceAt i with
  | none => { s.orders[i] with next := 0, mark := .noMark }
  | some (t, _) =>
    { s.orders[i] with
      next := if s.guard.isTripped && t.inForce.mode == .auto then 0 else s.writtenOrder grants i t
      mark := t.pendingMode.mode.mark }

/-- The computation (R109 to R116): next orders, run order list, overrun flag and the last computation record. -/
def computation (s : State) : State :=
  let walk := s.grantWalk s.grantOrder (availableBudget s - s.manualTotal)
  let done := { s with
    orders := Vector.ofFn fun i => s.computedEntry walk.amounts i
    alloc := { s.alloc with
      runOrder := s.grantOrder
      overrun := decide (s.alloc.budget < s.manualTotal)
      last := some { time := s.now, available := availableBudget s, manual := s.manualTotal, remaining := walk.account } } }
  if s.alloc.budget < s.manualTotal then done.postAllocation .budgetOverrun else done

/-- An extra run, made only while the Allocator is RUNNING (R108). -/
def extraRun (s : State) : State :=
  if s.alloc.running then computation s else s

/-! ### Promotion (R129 to R131) -/

/-- The active order of an index after promotion (R129). -/
def State.promotedOrder (s : State) (i : Fin 32) : Nat :=
  match s.serviceAt i with
  | some (t, _) => if s.orders[i].mark = t.pendingMode.mode.mark then s.orders[i].next else 0
  | none => 0

/-- The sum of all active orders (R131). -/
def State.activeTotal (s : State) : Nat :=
  sumTanks fun i => s.orders[i].active

/-- Promotion up to its snapshots: next orders become active, pending modes are put in force, tanks whose mode becomes MANUAL
leave the run order list, and snapshots are taken (R12, R50, R129). -/
def promoteOrders (s : State) : State :=
  let promoted := (s.writeActive s.promotedOrder).delist
    (s.tankIs fun t => t.pendingMode.mode == .manual)
  (promoted.mapTanks fun _ t => { t with inForce := t.pendingMode }).takeSnapshots

/-- Promotion, with the news to the Intake Guard whether the sum rose (R131, R144). -/
def promotion (s : State) : State :=
  if s.activeTotal < (promoteOrders s).activeTotal then sumRose (promoteOrders s) else promoteOrders s

/-- The allocation run: stall evaluation, promotion, computation, and the period timer restarted with P (R107). -/
def runEvent (s : State) : State :=
  if s.alloc.running && due s.alloc.periodTimer s.ds then
    let done := computation (promotion (stallStage s))
    { done with alloc := { done.alloc with periodTimer := startTimer s.ds done.alloc.period } }
  else s

def execAllocationRun (s : State) : Host.Outcome State Fault Refusal :=
  .next (whileReleased runEvent s)

/-! ### Shed (R118 to R122) -/

/-- Rmin of the tank at an index. -/
def State.rMinAt (s : State) (i : Fin 32) : Nat :=
  match s.tanks[i] with
  | some t => t.defn.rMin
  | none => 0

/-- The mode in force at an index is AUTO, so its active order is automatic (R119). -/
def State.autoActive (s : State) (i : Fin 32) : Bool :=
  s.tankIs (fun t => t.inForce.mode == .auto) i

/-- The mode in force at an index is MANUAL. -/
def State.manualActive (s : State) (i : Fin 32) : Bool :=
  s.tankIs (fun t => t.inForce.mode == .manual) i

/-- The next order at an index is marked AUTO (R119). -/
def State.autoNext (s : State) (i : Fin 32) : Bool :=
  s.orders[i].mark == .auto

/-- The next order at an index is marked MANUAL. -/
def State.manualNext (s : State) (i : Fin 32) : Bool :=
  s.orders[i].mark == .manual

/-- The shed order over one buffer: automatic orders outside the list in descending index, then the list from its end (R119).
Only automatic orders are taken; in the list every order is automatic (R117, log 22). -/
def shedOrder (automatic : Fin 32 → Bool) (amount : Fin 32 → Nat) (runOrder : List (Fin 32)) : List (Fin 32) :=
  ((List.finRange 32).reverse.filter fun i => automatic i && amount i != 0 && !runOrder.contains i) ++
    runOrder.reverse.filter automatic

/-- Steps 1 to 4 of R120 on one tank; the account is S. -/
def shedStep (rMin : Fin 32 → Nat) (allowance : Nat) (w : Walk) (i : Fin 32) : Walk :=
  let order := w.amounts[i]
  if w.account ≤ allowance ∨ order = 0 then w
  else
    let cut := order - min order (w.account - allowance)
    let kept := if cut < rMin i then 0 else cut
    { amounts := w.amounts.set i kept, account := w.account - (order - kept) }

/-- One walk of a shed over a buffer (R120, R121). -/
def shedWalk (s : State) (automatic manual : Fin 32 → Bool) (amount : Fin 32 → Nat) : Walk :=
  let allowance := s.alloc.budget - sumTanks fun i => if manual i then amount i else 0
  (shedOrder automatic amount s.alloc.runOrder).foldl (shedStep s.rMinAt allowance)
    { amounts := Vector.ofFn amount, account := sumTanks fun i => if automatic i then amount i else 0 }

/-- The active orders after the active walk (R120). -/
def shedActive (s : State) : Vector Nat 32 :=
  (shedWalk s s.autoActive s.manualActive fun i => s.orders[i].active).amounts

/-- The next orders after the next walk (R121). -/
def shedNext (s : State) : Vector Nat 32 :=
  (shedWalk s s.autoNext s.manualNext fun i => s.orders[i].next).amounts

/-- Some order would be changed by the shed (R122). -/
def shedChanges (s : State) : Bool :=
  (List.finRange 32).any fun i => (shedActive s)[i] != s.orders[i].active || (shedNext s)[i] != s.orders[i].next

/-- A shed: the active walk, the next walk, and BUDGET_SHED once if any order changed (R118, R122). -/
def shed (s : State) : State :=
  let cut := (s.writeActive fun i => (shedActive s)[i]).writeNext fun i => (shedNext s)[i]
  if shedChanges s then cut.postAllocation .budgetShed else cut

/-- B takes a new value; a fall while RUNNING sheds (R102, R103, R118). -/
def setBudget (b : Nat) (s : State) : State :=
  let changed := { s with alloc := { s.alloc with budget := b } }
  if s.alloc.running && b < s.alloc.budget then shed changed else changed

end Sys2Proof.Machine
end

