-- ==== Sys2Proof/Machine/Allocator.lean ====
section
/-! DEFINITION. The commands of the Allocator and the Order Buffer (specs 06 and 07). -/

namespace Sys2Proof.Machine

/-- SET_BANK (R100, R103). -/
def answerSetBank (bank budget : Nat) (s : State) : Answer :=
  match indexIn 8 bank with
  | none => refuse .badIndex s
  | some i =>
    let stored := { s with alloc := { s.alloc with banks := s.alloc.banks.set i budget } }
    let done := if i = s.alloc.selected then setBudget budget stored else stored
    accept (joinFields [1, 2, 2] [bank, budget, done.alloc.budget]) done

def execSetBank (bank budget : Nat) (s : State) : Host.Outcome State Fault Refusal :=
  .next (serve (.setBank bank budget) (answerSetBank bank budget) s)

/-- The number that the three CAP_SEL lines present, CAP_SEL0 least significant (R101). -/
def capSelNumber (lines : Vector Bool 3) : Fin 8 :=
  Fin.ofNat 8 (bitsOf [lines[0], lines[1], lines[2]])

/-- A change on a CAP_SEL line: the observed value, and the settle timer stopped or started again (R101). -/
def capSelEvent (s : State) : State :=
  let seen := capSelNumber s.pins.capSel
  { s with alloc := { s.alloc with
      observed := seen
      settleTimer := if seen = s.alloc.selected then none else startTimer s.ds s.alloc.settleTime } }

/-- The command is a change of level of one CAP_SEL line; the pin follows also while RESET_N is asserted (logs 4 and 8). -/
def execCapSelChange (line : Fin 3) (asserted : Bool) (s : State) : Host.Outcome State Fault Refusal :=
  .next (if s.pins.capSel[line] = asserted then s
    else whileReleased capSelEvent { s with pins := { s.pins with capSel := s.pins.capSel.set line asserted } })

/-- The settle expiry (R102). -/
def settleEvent (s : State) : State :=
  if due s.alloc.settleTimer s.ds then
    let settled := { s with alloc := { s.alloc with selected := s.alloc.observed, settleTimer := none } }
    (setBudget s.alloc.banks[s.alloc.observed] settled).postAllocation .bankChanged
  else s

def execSettleExpiry (s : State) : Host.Outcome State Fault Refusal :=
  .next (whileReleased settleEvent s)

/-- START_ALLOCATION (R105). -/
def answerStartAllocation (s : State) : Answer :=
  if s.alloc.running then
    accept (timerField 2 s.alloc.periodTimer fun e => openSecondsLeft .startAllocation e s.ds) s
  else
    let started := computation { s with alloc := { s.alloc with running := true } }
    accept (bytesOf 2 s.alloc.period)
      { started with alloc := { started.alloc with periodTimer := startTimer s.ds s.alloc.period } }

def execStartAllocation (s : State) : Host.Outcome State Fault Refusal :=
  .next (serve .startAllocation answerStartAllocation s)

/-- The Allocator STOPPED: no period timer, an empty run order list, a clear overrun flag (R106, R125). -/
def stopAllocator (s : State) : State :=
  { s with alloc := { s.alloc with running := false, periodTimer := none, runOrder := [], overrun := false } }

/-- STOP_ALLOCATION (R106). -/
def answerStopAllocation (s : State) : Answer :=
  if s.alloc.running then accept [] (stopAllocator (s.zeroOrders fun _ => true))
  else refuse .stopped s

def execStopAllocation (s : State) : Host.Outcome State Fault Refusal :=
  .next (serve .stopAllocation answerStopAllocation s)

/-! ### READ_ORDERS -/

/-- The mode-in-force bit of READ_ORDERS; no rule states it for an UNDEFINED tank (R136, log 12). -/
def State.modeBit (s : State) (i : Fin 32) : Nat :=
  match s.tanks[i] with
  | some t => t.inForce.mode.code
  | none => Config.unstated .undefinedTankMode % 2

/-- The five bytes of one tank in READ_ORDERS (section 10.6). -/
def State.orderBytes (s : State) (i : Fin 32) : List Byte :=
  joinFields [2, 2, 1] [s.orders[i].active, s.orders[i].next,
    s.orders[i].mark.code + 4 * s.modeBit i + 8 * flagCode s.orders[i].activeChanged]

/-- The payload of READ_ORDERS (R136, section 10.6, 165 bytes). -/
def State.ordersPayload (s : State) : List Byte :=
  bytesOf 1 (flagCode s.alloc.running) ++ timerField 2 s.alloc.periodTimer (fun e => secondsLeft e s.ds) ++
    joinFields [1, 1] [s.guard.trip.code, s.guard.hold.code] ++ (List.finRange 32).flatMap s.orderBytes

/-- READ_ORDERS: the reply is formed, then every active_changed flag is cleared (R136, R137). -/
def answerReadOrders (s : State) : Answer :=
  accept s.ordersPayload { s with orders := s.orders.map fun e => { e with activeChanged := false } }

def execReadOrders (s : State) : Host.Outcome State Fault Refusal :=
  .next (serve .readOrders answerReadOrders s)

/-! ### READ_ALLOCATION -/

/-- The filter timer (R140). -/
def Trip.filterTimer : Trip → Timer
  | .armed filter => filter
  | .blanked _ => none
  | .tripped _ => none

/-- The blank timer (R140). -/
def Trip.blankTimer : Trip → Timer
  | .blanked expiry => some expiry
  | .armed _ => none
  | .tripped _ => none

/-- The off-timer (R140). -/
def Trip.offTimer : Trip → Timer
  | .tripped expiry => some expiry
  | .armed _ => none
  | .blanked _ => none

/-- The hold start (R149). -/
def Hold.startTime : Hold → Option Nat
  | .noHold => none
  | .held start _ _ _ => some start
  | .overridden start _ => some start

/-- The hold limit (R149). -/
def Hold.limitTime : Hold → Option Nat
  | .noHold => none
  | .held _ limit _ _ => some limit
  | .overridden _ limit => some limit

/-- The hold end; in OVERRIDDEN it equals the limit (R149). -/
def Hold.endTime : Hold → Option Nat
  | .noHold => none
  | .held _ _ stop _ => some stop
  | .overridden _ limit => some limit

/-- Seconds remaining until the hold end, rounded up, 0 where the end timer is stopped (R156). -/
def Hold.secondsLeft (h : Hold) (ds : Nat) : Nat :=
  match h with
  | .held _ _ _ timer => Machine.secondsLeft timer ds
  | .overridden _ _ => 0
  | .noHold => 0

/-- The last computation part of READ_ALLOCATION, bytes 37 to 46; M saturates at 65535 (R123). -/
def lastComputationBytes : Option LastComputation → List Byte
  | some c => joinFields [4, 2, 2, 2] [c.time, c.available, min max16 c.manual, c.remaining]
  | none => List.replicate 10 0

/-- The Allocator's part of READ_ALLOCATION, bytes 0 to 79 (R123, section 10.6). -/
def Allocator.bytes (ds : Nat) (a : Allocator) : List Byte :=
  bytesOf 1 (flagCode a.running) ++ a.banks.toList.flatMap (bytesOf 2) ++
    joinFields [1, 1] [a.observed, a.selected] ++ timerField 2 a.settleTimer (fun e => secondsLeft e ds) ++
    joinFields [2, 2, 2, 2, 4, 1]
      [a.budget, a.period, a.guardBand, a.overrideBudget, a.imminentThreshold, a.settleTime] ++
    timerField 2 a.periodTimer (fun e => secondsLeft e ds) ++
    bytesOf 1 (bitsOf [a.overrun, a.last.isSome]) ++ lastComputationBytes a.last ++
    bytesOf 1 a.runOrder.length ++ a.runOrder.flatMap (fun i : Fin 32 => bytesOf 1 i) ++
    List.replicate (32 - a.runOrder.length) 0

/-- The Intake Guard's part of READ_ALLOCATION, bytes 80 to 118 (R156, section 10.6). -/
def Guard.bytes (ds : Nat) (g : Guard) : List Byte :=
  joinFields [1, 1] [g.trip.code, flagCode g.lineHigh] ++
    timerField 2 g.trip.filterTimer (fun e => secondsLeft e ds) ++
    timerField 2 g.trip.blankTimer (fun e => secondsLeft e ds) ++
    timerField 2 g.trip.offTimer (fun e => secondsLeft e ds) ++
    joinFields [2, 2, 1, 2, 2, 4, 1, 1, 4, 4, 4, 4]
      [g.tripCount, g.extensionCount, g.filterTime, g.blankTime, g.offTime, g.longestHold, g.hold.code,
       bitsOf [g.hold.startTime.isSome, g.hold.limitTime.isSome, g.hold.endTime.isSome],
       g.hold.startTime.getD 0, g.hold.limitTime.getD 0, g.hold.endTime.getD 0, g.hold.secondsLeft ds]

/-- READ_ALLOCATION (R123, R156, section 10.6, 119 bytes). -/
def answerReadAllocation (s : State) : Answer :=
  accept (s.alloc.bytes s.ds ++ s.guard.bytes s.ds) s

def execReadAllocation (s : State) : Host.Outcome State Fault Refusal :=
  .next (serve .readAllocation answerReadAllocation s)

end Sys2Proof.Machine
end

