-- ==== Sys2Proof/Machine/IntakeGuard.lean ====
section
/-! DEFINITION. The commands of the Intake Guard that cause extra runs, and the works hold (spec 08). -/

namespace Sys2Proof.Machine

/-- The off-timer expiry: the off-time is extended while the line is asserted; otherwise ARMED, TRIP_CLEARED and an extra run
(R146). -/
def offEvent (s : State) : State :=
  match s.guard.trip with
  | .tripped expiry =>
    if expiry ≤ s.ds then
      if s.guard.lineHigh then
        { s with guard := { s.guard with
            trip := .tripped (s.ds + 10 * s.guard.offTime)
            extensionCount := satAdd max16 s.guard.extensionCount 1 } }
      else extraRun ((s.setTrip (.armed none)).postAllocation .tripCleared)
    else s
  | .armed _ => s
  | .blanked _ => s

def execOffTimerExpiry (s : State) : Host.Outcome State Fault Refusal :=
  .next (whileReleased offEvent s)

/-- Where RESUME takes the trip machine: BLANKED for S, or ARMED where S is 0 (R147). -/
def leaveTripped (s : State) : State :=
  if s.guard.blankTime = 0 then enterArmed (s.postAllocation .tripCleared)
  else enterBlanked (s.postAllocation .tripCleared)

/-- RESUME (R147). -/
def answerResume (s : State) : Answer :=
  if s.guard.isTripped then
    accept (bytesOf 1 (leaveTripped s).guard.trip.code) (extraRun (leaveTripped s))
  else refuse .notTripped s

def execResume (s : State) : Host.Outcome State Fault Refusal :=
  .next (serve .resume answerResume s)

/-! ### The works hold -/

/-- The hold state set. -/
def State.setHold (h : Hold) (s : State) : State :=
  { s with guard := { s.guard with hold := h } }

/-- The next-only zeroing at the start of a hold: every next order marked AUTO becomes 0 (R134). -/
def State.zeroAutoNext (s : State) : State :=
  s.writeNext fun i => if s.orders[i].mark = .auto then 0 else s.orders[i].next

/-- The payload of an accepted HOLD: state, start, end and seconds remaining to the end (R150, section 10.6). -/
def holdPayload (s : State) (start stop timer : Nat) : List Byte :=
  joinFields [1, 4, 4, 4] [1, start, stop, openSecondsLeft .hold timer s.ds]

/-- HOLD in NONE starts a hold (R150). -/
def startHold (duration : Nat) (s : State) : State :=
  let length := min duration s.guard.longestHold
  ((s.setHold (.held s.now (s.now + s.guard.longestHold) (s.now + length) (s.ds + 10 * length))).zeroAutoNext).flagSpills

/-- HOLD (R150, R151). A duration of 0 is refused before the state is looked at (log 16). -/
def answerHold (duration : Nat) (s : State) : Answer :=
  if duration = 0 then refuse .badValue s
  else
    let used := min duration 86400
    match s.guard.hold with
    | .noHold =>
      let length := min used s.guard.longestHold
      accept (holdPayload s s.now (s.now + length) (s.ds + 10 * length)) (startHold used s)
    | .held start limit stop timer =>
      let moved := min (max stop (s.now + used)) limit
      if moved = stop then accept (holdPayload s start stop timer) s
      else
        let timer' := s.ds + 10 * (moved - s.now)
        accept (holdPayload s start moved timer') (s.setHold (.held start limit moved timer'))
    | .overridden _ _ => refuse .holdLocked s

def execHold (duration : Nat) (s : State) : Host.Outcome State Fault Refusal :=
  .next (serve (.hold duration) (answerHold duration) s)

/-- RELEASE (R153). -/
def answerRelease (s : State) : Answer :=
  match s.guard.hold with
  | .noHold => refuse .notHeld s
  | .held _ _ _ _ => accept (bytesOf 1 s.guard.hold.code) (extraRun (s.setHold .noHold))
  | .overridden _ _ => accept (bytesOf 1 s.guard.hold.code) (extraRun (s.setHold .noHold))

def execRelease (s : State) : Host.Outcome State Fault Refusal :=
  .next (serve .release answerRelease s)

/-- The end expiry of a HELD hold: NONE with HOLD_ENDED, or OVERRIDDEN with HOLD_OVERRIDDEN at the limit; then an extra run
(R152). -/
def holdEndEvent (s : State) : State :=
  match s.guard.hold with
  | .held start limit stop timer =>
    if timer ≤ s.ds then
      if stop = limit then
        extraRun (((s.setHold (.overridden start limit)).flagSpills).postAllocation .holdOverridden)
      else extraRun ((s.setHold .noHold).postAllocation .holdEnded)
    else s
  | .overridden _ _ => s
  | .noHold => s

def execHoldEndExpiry (s : State) : Host.Outcome State Fault Refusal :=
  .next (whileReleased holdEndEvent s)

end Sys2Proof.Machine
end

