-- ==== Sys2Proof/Machine/Gauges.lean ====
section
/-! DEFINITION. The Gauge Unit (spec 04). -/

namespace Sys2Proof.Machine

/-- Writes one gauge's record. -/
def State.setGauge (i : Fin 12) (g : Option Gauge) (s : State) : State :=
  { s with gauges := s.gauges.set i g }

/-- The definition values lie in their ranges (R63). -/
def gaugeValuesOk (depth debounce dryGap : Nat) : Bool :=
  1 ≤ depth && depth ≤ 100 && 1 ≤ debounce && debounce ≤ 50 && 600 ≤ dryGap && dryGap ≤ 86400

/-- A gauge just defined: DRY, nothing counted (R63). -/
def Gauge.fresh (depth debounce dryGap : Nat) : Gauge :=
  { depthPerTip := depth, debounce := debounce, dryGap := dryGap, storm := .dry, stormDepth := 0, tips := 0, lastTip := none,
    interval := none, tipDepth := none, dryTimer := none }

/-- DEFINE_GAUGE: a fresh record, or the definition replaced with the storm kept (R63, R64). -/
def answerDefineGauge (gauge depth debounce dryGap : Nat) (s : State) : Answer :=
  match indexIn 12 gauge with
  | none => refuse .badIndex s
  | some i =>
    if gaugeValuesOk depth debounce dryGap then
      match s.gauges[i] with
      | none => accept [] (s.setGauge i (some (Gauge.fresh depth debounce dryGap)))
      | some g => accept [] (s.setGauge i (some { g with depthPerTip := depth, debounce := debounce, dryGap := dryGap }))
    else refuse .badValue s

def execDefineGauge (gauge depth debounce dryGap : Nat) (s : State) : Host.Outcome State Fault Refusal :=
  .next (serve (.defineGauge gauge depth debounce dryGap) (answerDefineGauge gauge depth debounce dryGap) s)

/-- Some defined catchment lists the gauge (R65). -/
def State.gaugeListed (s : State) (i : Fin 12) : Bool :=
  s.catchments.any fun c => match c with
    | some c => c.defn.gauges.contains i
    | none => false

/-- RETIRE_GAUGE (R65). -/
def answerRetireGauge (gauge : Nat) (s : State) : Answer :=
  match indexIn 12 gauge with
  | none => refuse .badIndex s
  | some i =>
    match s.gauges[i] with
    | none => refuse .notDefined s
    | some _ => if s.gaugeListed i then refuse .inUse s else accept [] (s.setGauge i none)

def execRetireGauge (gauge : Nat) (s : State) : Host.Outcome State Fault Refusal :=
  .next (serve (.retireGauge gauge) (answerRetireGauge gauge) s)

/-- An edge at this count is accepted by the debounce (R67). -/
def Gauge.accepts (ds : Nat) (g : Gauge) : Bool :=
  match g.lastTip with
  | none => true
  | some last => g.debounce ≤ ds - last

/-- The record after an accepted tip: a storm begun (R68) or continued (R69). -/
def Gauge.tip (ds : Nat) (g : Gauge) : Gauge :=
  match g.storm with
  | .dry =>
    { g with
      storm := .wet, stormDepth := g.depthPerTip, tips := 1, tipDepth := some g.depthPerTip, interval := none
      lastTip := some ds, dryTimer := startTimer ds g.dryGap }
  | .wet =>
    { g with
      interval := some (min max16 (ds - g.lastTip.getD ds))
      stormDepth := satAdd max32 g.stormDepth g.depthPerTip
      tips := satAdd max16 g.tips 1
      tipDepth := some g.depthPerTip
      lastTip := some ds
      dryTimer := startTimer ds g.dryGap }

/-- An edge on a TIP line: disregarded for an undefined gauge, judged by debounce for a defined one (R66, R67). -/
def tipEvent (i : Fin 12) (s : State) : State :=
  match s.gauges[i] with
  | none => s
  | some g => if g.accepts s.ds then s.setGauge i (some (g.tip s.ds)) else s

def execTipEdge (gauge : Fin 12) (s : State) : Host.Outcome State Fault Refusal :=
  .next (whileReleased (tipEvent gauge) s)

/-- The storm ended: DRY, nothing counted, the last tip time kept (R70, R77). -/
def Gauge.endStorm (g : Gauge) : Gauge :=
  { g with storm := .dry, stormDepth := 0, tips := 0, interval := none, tipDepth := none, dryTimer := none }

/-- The dry-gap expiry (R70). -/
def dryGapEvent (i : Fin 12) (s : State) : State :=
  match s.gauges[i] with
  | none => s
  | some g => if due g.dryTimer s.ds then s.setGauge i (some g.endStorm) else s

def execDryGapExpiry (gauge : Fin 12) (s : State) : Host.Outcome State Fault Refusal :=
  .next (whileReleased (dryGapEvent gauge) s)

/-- The intensity at a count, in 0.1 mm/h (R72). -/
def Gauge.intensity (ds : Nat) (g : Gauge) : Nat :=
  match g.storm, g.interval with
  | .wet, some interval =>
    min max16 (3600 * g.tipDepth.getD 0 / max interval (ds - g.lastTip.getD ds))
  | .wet, none => 0
  | .dry, _ => 0

/-- Elapsed since the last tip, saturated, 0 where there was none (R75). -/
def Gauge.elapsed (ds : Nat) (g : Gauge) : Nat :=
  match g.lastTip with
  | none => 0
  | some last => min max16 (ds - last)

/-- The payload of READ_GAUGE for a defined gauge (R75, section 10.6, 30 bytes). -/
def Gauge.payload (ds : Nat) (g : Gauge) : List Byte :=
  joinFields [1, 1, 1, 4, 1, 4, 2, 1, 4, 2, 1, 2, 2]
    [1, g.depthPerTip, g.debounce, g.dryGap, g.storm.code, g.stormDepth, g.tips,
     bitsOf [g.lastTip.isSome, g.interval.isSome], g.lastTip.getD 0, g.interval.getD 0, g.tipDepth.getD 0,
     g.intensity ds, g.elapsed ds] ++
  timerField 4 g.dryTimer (fun e => secondsLeft e ds)

/-- READ_GAUGE (R75). -/
def answerReadGauge (gauge : Nat) (s : State) : Answer :=
  match indexIn 12 gauge with
  | none => refuse .badIndex s
  | some i =>
    match s.gauges[i] with
    | none => accept (List.replicate 30 0) s
    | some g => accept (g.payload s.ds) s

def execReadGauge (gauge : Nat) (s : State) : Host.Outcome State Fault Refusal :=
  .next (serve (.readGauge gauge) (answerReadGauge gauge) s)

end Sys2Proof.Machine
end

