-- ==== Sys2Proof/Machine/Catchments.lean ====
section
/-! DEFINITION. The Alert Unit (spec 05). -/

namespace Sys2Proof.Machine

/-- Writes one catchment's record. -/
def State.setCatchment (i : Fin 8) (c : Option Catchment) (s : State) : State :=
  { s with catchments := s.catchments.set i c }

/-- The RAIN_ALERT line formed anew (R94). -/
def State.formRainAlert (s : State) : State :=
  { s with alerts := { s.alerts with rainAlert := Machine.formRainAlert s.catchments } }

/-! ### Definition -/

/-- The numbers of a DEFINE_CATCHMENT body: gauge indices, thresholds, hysteresis, hold_down (section 10.6). -/
structure CatchmentFields where
  gauges : List Nat
  iWatch : Nat
  iWarning : Nat
  iSevere : Nat
  dWatch : Nat
  dWarning : Nat
  dSevere : Nat
  hysteresis : Nat
  holdDown : Nat
deriving DecidableEq, Repr

/-- A body of the length that its gauge count requires (R79, check 3). -/
def catchmentFields (count : Nat) (body : List Byte) : Option CatchmentFields :=
  match fieldsOf [2, 2, 2, 4, 4, 4, 2, 2] (body.drop count) with
  | some [iWatch, iWarning, iSevere, dWatch, dWarning, dSevere, hysteresis, holdDown] =>
    some ⟨(body.take count).map BitVec.toNat, iWatch, iWarning, iSevere, dWatch, dWarning, dSevere, hysteresis, holdDown⟩
  | _ => none

/-- The value checks on a body whose gauge indices are in range (R79, check 5). -/
def CatchmentFields.valuesOk (f : CatchmentFields) : Bool :=
  decide f.gauges.Nodup && 0 < f.iWatch && 0 < f.iWarning && 0 < f.iSevere && f.iWatch ≤ f.iWarning &&
    f.iWarning ≤ f.iSevere && f.hysteresis < f.iWatch && 60 ≤ f.holdDown && f.holdDown ≤ 7200

/-- The gauge indices as gauges, where all are in range. -/
def CatchmentFields.gaugeList (f : CatchmentFields) : Option (List (Fin 12)) :=
  f.gauges.mapM (indexIn 12)

/-- The definition that a checked body gives. -/
def CatchmentFields.defn (gauges : List (Fin 12)) (f : CatchmentFields) : CatchmentDef :=
  { gauges := gauges, iWatch := f.iWatch, iWarning := f.iWarning, iSevere := f.iSevere, dWatch := f.dWatch,
    dWarning := f.dWarning, dSevere := f.dSevere, hysteresis := f.hysteresis, holdDown := f.holdDown }

/-- A catchment with its alert fields as at definition and after CLEAR_STATE (R79, R99). -/
def Catchment.fresh (d : CatchmentDef) : Catchment :=
  { defn := d, lastIntensity := 0, lastDepth := 0, gaugeLevel := .noAlert, holdStart := none, floor := none,
    effective := .noAlert, acknowledged := false, raised := none, peak := 0 }

/-- DEFINE_CATCHMENT: the checks of R79 in order, then a fresh record or the definition replaced with the alert fields kept
(R79, R80). -/
def answerDefineCatchment (catchment count : Nat) (body : List Byte) (s : State) : Answer :=
  match indexIn 8 catchment with
  | none => refuse .badIndex s
  | some i =>
    if count = 0 ∨ 4 < count then refuse .badValue s
    else match catchmentFields count body with
      | none => refuse .badLength s
      | some f =>
        match f.gaugeList with
        | none => refuse .badIndex s
        | some gauges =>
          if f.valuesOk then
            if gauges.all fun g => s.gauges[g].isSome then
              match s.catchments[i] with
              | none => accept [] (s.setCatchment i (some (Catchment.fresh (f.defn gauges))))
              | some c => accept [] (s.setCatchment i (some { c with defn := f.defn gauges }))
            else refuse .notDefined s
          else refuse .badValue s

def execDefineCatchment (catchment count : Nat) (body : List Byte) (s : State) : Host.Outcome State Fault Refusal :=
  .next (serve (.defineCatchment catchment count body) (answerDefineCatchment catchment count body) s)

/-- The number of tanks that name a catchment (R97). -/
def State.tanksNaming (s : State) (c : Fin 8) : Nat :=
  sumTanks fun i => if s.tankIs (fun t => t.defn.catchment == c) i then 1 else 0

/-- Every notice pending for a catchment is discarded; ATTN follows (R81, R185). -/
def State.discardCatchmentNotices (i : Fin 8) (s : State) : State :=
  { s with notices := Notices.settled { s.notices with catchments := s.notices.catchments.set i 0 } }

/-- RETIRE_CATCHMENT (R81). -/
def answerRetireCatchment (catchment : Nat) (s : State) : Answer :=
  match indexIn 8 catchment with
  | none => refuse .badIndex s
  | some i =>
    match s.catchments[i] with
    | none => refuse .notDefined s
    | some _ =>
      if s.tanksNaming i = 0 then accept [] (((s.setCatchment i none).discardCatchmentNotices i).formRainAlert)
      else refuse .inUse s

def execRetireCatchment (catchment : Nat) (s : State) : Host.Outcome State Fault Refusal :=
  .next (serve (.retireCatchment catchment) (answerRetireCatchment catchment) s)

/-! ### The effective level -/

/-- A catchment after an event, with the notices it posts. -/
structure CatchmentStep where
  catchment : Catchment
  posts : List CatchmentPost
deriving DecidableEq, Repr

/-- The greater of the gauge-derived level and the floor (R89). -/
def Catchment.formedLevel (c : Catchment) : AlertLevel :=
  match c.floor with
  | none => c.gaugeLevel
  | some f => c.gaugeLevel.greater f.level

/-- The effective level formed anew: a rise (R90), a fall (R91), or nothing. -/
def Catchment.formEffective (now : Nat) (c : Catchment) : CatchmentStep :=
  let level := c.formedLevel
  if c.effective.code < level.code then
    { catchment := { c with effective := level, acknowledged := false, raised := some now, peak := c.lastIntensity }
      posts := [.raised] }
  else if level.code < c.effective.code then
    { catchment := { c with effective := level, acknowledged := if level = .noAlert then false else c.acknowledged }
      posts := [.lowered] }
  else { catchment := c, posts := [] }

/-! ### Evaluation -/

/-- The intensity threshold of a level; NONE has none. -/
def CatchmentDef.intensityOf (d : CatchmentDef) : AlertLevel → Nat
  | .noAlert => 0
  | .watch => d.iWatch
  | .warning => d.iWarning
  | .severe => d.iSevere

/-- The depth threshold of a level; 0 means unused. -/
def CatchmentDef.depthOf (d : CatchmentDef) : AlertLevel → Nat
  | .noAlert => 0
  | .watch => d.dWatch
  | .warning => d.dWarning
  | .severe => d.dSevere

/-- A level is due (R84). -/
def CatchmentDef.isDue (d : CatchmentDef) (intensity depth : Nat) (level : AlertLevel) : Bool :=
  d.intensityOf level ≤ intensity || (d.depthOf level != 0 && d.depthOf level ≤ depth)

/-- The raw level: the highest that is due (R84). -/
def CatchmentDef.rawLevel (d : CatchmentDef) (intensity depth : Nat) : AlertLevel :=
  if d.isDue intensity depth .severe then .severe
  else if d.isDue intensity depth .warning then .warning
  else if d.isDue intensity depth .watch then .watch
  else .noAlert

/-- The lowering condition of a level (R86). -/
def CatchmentDef.lowering (d : CatchmentDef) (intensity depth : Nat) (level : AlertLevel) : Bool :=
  intensity < d.intensityOf level - d.hysteresis && (d.depthOf level == 0 || depth < d.depthOf level)

/-- The gauge-derived level and hold-down start after an evaluation (R85, R86). -/
def Catchment.nextGaugeLevel (now intensity depth : Nat) (c : Catchment) : AlertLevel × Option Nat :=
  let raw := c.defn.rawLevel intensity depth
  if c.gaugeLevel.code < raw.code then (raw, none)
  else if c.gaugeLevel = .noAlert then (.noAlert, none)
  else if c.defn.lowering intensity depth c.gaugeLevel then
    match c.holdStart with
    | none => (c.gaugeLevel, some now)
    | some start =>
      if start + c.defn.holdDown ≤ now then
        (c.gaugeLevel.lower, if c.gaugeLevel.lower = .noAlert then none else some now)
      else (c.gaugeLevel, some start)
  else (c.gaugeLevel, none)

/-- The peak intensity kept up at an evaluation that does not raise the effective level (R92). -/
def Catchment.keepPeak (intensity : Nat) (c : Catchment) : Catchment :=
  if c.effective = .noAlert then c else { c with peak := max c.peak intensity }

/-- One evaluation of a catchment: readings, gauge-derived level, effective level, peak (R83 to R86, R89 to R92). -/
def Catchment.evaluate (now intensity depth : Nat) (c : Catchment) : CatchmentStep :=
  let next := c.nextGaugeLevel now intensity depth
  let formed := Catchment.formEffective now
    { c with lastIntensity := intensity, lastDepth := depth, gaugeLevel := next.1, holdStart := next.2 }
  if c.effective.code < formed.catchment.effective.code then formed
  else { formed with catchment := formed.catchment.keepPeak intensity }

/-- The largest of a quantity over the listed gauges (R83). -/
def State.largest (s : State) (f : Gauge → Nat) (gauges : List (Fin 12)) : Nat :=
  gauges.foldl (fun m g => match s.gauges[g] with
    | some gauge => max m (f gauge)
    | none => m) 0

/-- The evaluation of the catchment at an index, if it is defined (R83). -/
def State.evaluated (s : State) (i : Fin 8) : Option CatchmentStep :=
  s.catchments[i].map fun c =>
    c.evaluate s.now (s.largest (Gauge.intensity s.ds) c.defn.gauges) (s.largest Gauge.stormDepth c.defn.gauges)

/-- The evaluation expiry: every defined catchment is evaluated, and the timer restarts with E (R82). -/
def evaluationEvent (s : State) : State :=
  if due s.alerts.evalTimer s.ds then
    let posts := fun i => match s.evaluated i with
      | some r => r.posts
      | none => []
    let judged := (({ s with
      catchments := Vector.ofFn fun i => (s.evaluated i).map CatchmentStep.catchment }).postCatchments posts).formRainAlert
    { judged with alerts := { judged.alerts with evalTimer := startTimer s.ds s.alerts.interval } }
  else s

def execEvaluationExpiry (s : State) : Host.Outcome State Fault Refusal :=
  .next (whileReleased evaluationEvent s)

/-! ### The forecast floor and acknowledgement -/

/-- A catchment's effective level formed anew within an event, with its notices and the RAIN_ALERT line (R89 to R91, R94);
`first` are the notices the event itself posts. -/
def State.reformCatchment (i : Fin 8) (first : List CatchmentPost) (c : Catchment) (s : State) : State :=
  let r := c.formEffective s.now
  ((s.setCatchment i (some r.catchment)).postCatchments fun j => if j = i then first ++ r.posts else []).formRainAlert

/-- The floor that SET_FORECAST asks for: none for NONE, else the level until the clamped duration has run (R87, R189). -/
def forecastFloor (s : State) (level : AlertLevel) (duration : Nat) : Option Floor :=
  if level = .noAlert then none
  else some { level := level, expiry := s.now + min duration 259200, timer := s.ds + 10 * min duration 259200 }

/-- The floor's level and expiry time in a reply, NONE and 0 where it is absent (R87, R97, log 13). -/
def floorBytes (floor : Option Floor) : List Byte :=
  joinFields [1, 4] [(floor.map fun f => f.level.code).getD 0, (floor.map Floor.expiry).getD 0]

/-- The floor's remaining seconds in the SET_FORECAST reply, 0 where it is absent (R87). -/
def forecastLeft (ds : Nat) : Option Floor → Nat
  | none => 0
  | some f => openSecondsLeft .setForecast f.timer ds

/-- SET_FORECAST (R87). -/
def answerSetForecast (catchment level duration : Nat) (s : State) : Answer :=
  match indexIn 8 catchment with
  | none => refuse .badIndex s
  | some i =>
    match AlertLevel.ofCode level with
    | none => refuse .badValue s
    | some l =>
      if l ≠ .noAlert ∧ duration = 0 then refuse .badValue s
      else match s.catchments[i] with
        | none => refuse .notDefined s
        | some c =>
          let floor := forecastFloor s l duration
          let asked := { c with floor := floor }
          accept (bytesOf 1 (asked.formEffective s.now).catchment.effective.code ++ floorBytes floor ++
              bytesOf 4 (forecastLeft s.ds floor))
            (s.reformCatchment i [] asked)

def execSetForecast (catchment level duration : Nat) (s : State) : Host.Outcome State Fault Refusal :=
  .next (serve (.setForecast catchment level duration) (answerSetForecast catchment level duration) s)

/-- A catchment's floor is present and its expiry has been reached. -/
def Catchment.floorDue (ds : Nat) (c : Catchment) : Bool :=
  match c.floor with
  | some f => f.timer ≤ ds
  | none => false

/-- The floor expiry (R88). -/
def floorEvent (i : Fin 8) (s : State) : State :=
  match s.catchments[i] with
  | none => s
  | some c => if c.floorDue s.ds then s.reformCatchment i [.floorExpired] { c with floor := none } else s

def execFloorExpiry (catchment : Fin 8) (s : State) : Host.Outcome State Fault Refusal :=
  .next (whileReleased (floorEvent catchment) s)

/-- ACK_ALERT (R93). -/
def answerAckAlert (catchment : Nat) (s : State) : Answer :=
  match indexIn 8 catchment with
  | none => refuse .badIndex s
  | some i =>
    match s.catchments[i] with
    | none => refuse .notDefined s
    | some c =>
      if c.effective = .noAlert then refuse .noAlert s
      else accept (bytesOf 1 c.effective.code) (s.setCatchment i (some { c with acknowledged := true }))

def execAckAlert (catchment : Nat) (s : State) : Host.Outcome State Fault Refusal :=
  .next (serve (.ackAlert catchment) (answerAckAlert catchment) s)

/-! ### READ_CATCHMENT -/

/-- Seconds remaining until the hold-down time is reached; 0 where absent or already reached (R97). -/
def Catchment.holdLeft (now : Nat) (c : Catchment) : Nat :=
  match c.holdStart with
  | some start => start + c.defn.holdDown - now
  | none => 0

/-- The gauge indices in list order, 0 beyond the count (section 10.6, bytes 2 to 5). -/
def gaugeBytes (gauges : List (Fin 12)) : List Byte :=
  gauges.flatMap (fun g : Fin 12 => bytesOf 1 g) ++ List.replicate (4 - gauges.length) 0

/-- The payload of READ_CATCHMENT for a defined catchment (R97, section 10.6, 59 bytes). The floor's expiry is a timer, stopped while the
floor is absent, so its remaining seconds are then all ones (section 10.6). -/
def Catchment.payload (s : State) (i : Fin 8) (c : Catchment) : List Byte :=
  joinFields [1, 1] [1, c.defn.gauges.length] ++ gaugeBytes c.defn.gauges ++
  joinFields [2, 2, 2, 4, 4, 4, 2, 2, 2, 4, 1, 1, 4, 2]
    [c.defn.iWatch, c.defn.iWarning, c.defn.iSevere, c.defn.dWatch, c.defn.dWarning, c.defn.dSevere, c.defn.hysteresis,
     c.defn.holdDown, c.lastIntensity, c.lastDepth, c.gaugeLevel.code,
     bitsOf [c.holdStart.isSome, c.acknowledged, c.raised.isSome], c.holdStart.getD 0, c.holdLeft s.now] ++
  floorBytes c.floor ++ timerField 4 (c.floor.map Floor.timer) (fun e => openSecondsLeft .readCatchment e s.ds) ++
  joinFields [1, 4, 2, 1] [c.effective.code, c.raised.getD 0, c.peak, s.tanksNaming i]

/-- READ_CATCHMENT (R97). -/
def answerReadCatchment (catchment : Nat) (s : State) : Answer :=
  match indexIn 8 catchment with
  | none => refuse .badIndex s
  | some i =>
    match s.catchments[i] with
    | none => accept (List.replicate 59 0) s
    | some c => accept (c.payload s i) s

def execReadCatchment (catchment : Nat) (s : State) : Host.Outcome State Fault Refusal :=
  .next (serve (.readCatchment catchment) (answerReadCatchment catchment) s)

end Sys2Proof.Machine
end

