-- ==== Sys2Proof/Machine/Tanks.lean ====
section
/-! DEFINITION. The Tank Table (spec 01). -/

namespace Sys2Proof.Machine

/-! ### DEFINE_TANK -/

/-- Every field lies in its range of R1 (R2, BAD_VALUE). -/
def tankFieldsOk (f : TankFields) : Bool :=
  f.combine ≤ 1 && f.basePriority ≤ 15 && f.dryLevel ≤ 29999 && 1 ≤ f.crestLevel && f.crestLevel ≤ 30000 &&
    f.endHysteresis ≤ 500 && 1 ≤ f.rMax && f.rMax ≤ 65535 && f.rMin ≤ f.rMax && 1 ≤ f.fallMin && f.fallMin ≤ 1000 &&
    (f.stallCount == 4 || f.stallCount == 16 || f.stallCount == 64) && f.faultReaction ≤ 1 &&
    60 ≤ f.reportTimeout && f.reportTimeout ≤ 3600 && 1 ≤ f.lostLimit && f.lostLimit ≤ 8 && 60 ≤ f.quietTime &&
    f.quietTime ≤ 7200 && f.confirmTime ≤ 600 && f.dryLevel < f.crestLevel

/-- The definition part that checked fields give (R1). -/
def tankDefOf (catchment : Fin 8) (zone : Fin 4) (f : TankFields) : TankDef :=
  { catchment := catchment, zone := zone, combine := (Combine.ofCode f.combine).getD .or
    basePriority := Fin.ofNat 16 f.basePriority, dryLevel := f.dryLevel, crestLevel := f.crestLevel
    endHysteresis := f.endHysteresis, rMax := f.rMax, rMin := f.rMin, fallMin := f.fallMin, stallCount := f.stallCount
    faultReaction := (FaultReaction.ofCode f.faultReaction).getD .latch, reportTimeout := f.reportTimeout
    lostLimit := f.lostLimit, quietTime := f.quietTime, confirmTime := f.confirmTime }

/-- The stage-storage table with V_dry and V_crest derived from it (R7). -/
def StageTable.derive (d : TankDef) (points : List Point) : StageTable :=
  { points := points, vDry := interpolate points d.dryLevel, vCrest := interpolate points d.crestLevel }

/-- A tank just created, OFFLINE; the effective inhibit is formed by the caller (R2). -/
def Tank.fresh (d : TankDef) : Tank :=
  { defn := d, stage := none, rating := none, inForce := { mode := .auto, value := 0 },
    pendingMode := { mode := .auto, value := 0 }, softInhibit := false, inhibited := false, book := SpillBook.fresh,
    service := none }

/-- An OFFLINE tank redefined (R3). -/
def Tank.redefine (d : TankDef) (t : Tank) : Tank :=
  { t with
    defn := d
    stage := t.stage.map fun st => StageTable.derive d st.points
    inForce := { t.inForce with value := min t.inForce.value d.rMax }
    pendingMode := { t.pendingMode with value := min t.pendingMode.value d.rMax } }

/-- The tank is IN_SERVICE. -/
def isInService : Option Tank → Bool
  | none => false
  | some t => t.service.isSome

/-- The record that an accepted DEFINE_TANK leaves, its effective inhibit formed at once (R2, R3, R13). -/
def State.definedTank (s : State) (i : Fin 32) (d : TankDef) : Tank :=
  match s.tanks[i] with
  | none => (Tank.fresh d).formInhibit s.pins.zinh
  | some t => (t.redefine d).formInhibit s.pins.zinh

/-- The Order Buffer's entry at the creation of a tank: both orders 0 with no mark (R2, R126). -/
def State.clearEntry (i : Fin 32) (s : State) : State :=
  { s with orders := s.orders.set i { s.orders[i] with active := 0, next := 0, mark := .noMark } }

/-- DEFINE_TANK (R2 to R4). -/
def answerDefineTank (tank : Nat) (f : TankFields) (s : State) : Answer :=
  match indexIn 32 tank, indexIn 8 f.catchment, indexIn 4 f.zone with
  | some i, some c, some z =>
    if isInService s.tanks[i] then refuse .notOffline s
    else if tankFieldsOk f then
      if s.catchments[c].isSome then
        let defined := s.setTank i (some (s.definedTank i (tankDefOf c z f)))
        accept [] (if s.tanks[i].isNone then defined.clearEntry i else defined)
      else refuse .notDefined s
    else refuse .badValue s
  | _, _, _ => refuse .badIndex s

def execDefineTank (tank : Nat) (fields : TankFields) (s : State) : Host.Outcome State Fault Refusal :=
  .next (serve (.defineTank tank fields) (answerDefineTank tank fields) s)

/-! ### Tables -/

/-- Each point against the next: levels strictly increasing, values not decreasing (R5, R6). -/
def risingPoints : List Point → Bool
  | [] => true
  | [_] => true
  | p :: q :: rest => p.x < q.x && p.y ≤ q.y && risingPoints (q :: rest)

/-- The checks on a stage-storage table (R5). -/
def stageOk (count : Nat) (points : List Point) : Bool :=
  2 ≤ count && count ≤ 12 && points.all (fun p => p.x ≤ 30000 && p.y ≤ 4000000) && risingPoints points

/-- The checks on a spill rating table (R6). -/
def ratingOk (count : Nat) (points : List Point) : Bool :=
  2 ≤ count && count ≤ 8 && points.all (fun p => p.x ≤ 30000) && points.head? == some { x := 0, y := 0 } &&
    risingPoints points

/-- LOAD_STAGE_TABLE (R5, R7). -/
def answerLoadStageTable (tank count : Nat) (body : List Byte) (s : State) : Answer :=
  match indexIn 32 tank with
  | none => refuse .badIndex s
  | some i =>
    match s.tanks[i] with
    | none => refuse .notDefined s
    | some t =>
      if t.service.isSome then refuse .notOffline s
      else if body.length ≠ 6 * count then refuse .badLength s
      else if stageOk count (pairsOf 2 4 count body) then
        let st := StageTable.derive t.defn (pairsOf 2 4 count body)
        accept (joinFields [4, 4] [st.vDry, st.vCrest]) (s.setTank i (some { t with stage := some st }))
      else refuse .badTable s

def execLoadStageTable (tank count : Nat) (points : List Byte) (s : State) : Host.Outcome State Fault Refusal :=
  .next (serve (.loadStageTable tank count points) (answerLoadStageTable tank count points) s)

/-- LOAD_RATING_TABLE (R6). -/
def answerLoadRatingTable (tank count : Nat) (body : List Byte) (s : State) : Answer :=
  match indexIn 32 tank with
  | none => refuse .badIndex s
  | some i =>
    match s.tanks[i] with
    | none => refuse .notDefined s
    | some t =>
      if t.service.isSome then refuse .notOffline s
      else if body.length ≠ 4 * count then refuse .badLength s
      else if ratingOk count (pairsOf 2 2 count body) then
        accept [] (s.setTank i (some { t with rating := some (pairsOf 2 2 count body) }))
      else refuse .badTable s

def execLoadRatingTable (tank count : Nat) (points : List Byte) (s : State) : Host.Outcome State Fault Refusal :=
  .next (serve (.loadRatingTable tank count points) (answerLoadRatingTable tank count points) s)

/-! ### Lifecycle -/

/-- The service part at entry into service (R8). -/
def Service.fresh : Service :=
  { op := .awaitLevel, level := LevelState.fresh, supervisor := Supervisor.fresh, spilling := .quiet }

/-- PLACE_IN_SERVICE (R8). -/
def answerPlaceInService (tank : Nat) (s : State) : Answer :=
  match indexIn 32 tank with
  | none => refuse .badIndex s
  | some i =>
    match s.tanks[i] with
    | none => refuse .notDefined s
    | some t =>
      if t.service.isSome then refuse .notOffline s
      else if t.stage.isSome && t.rating.isSome then
        accept [] (s.setTank i (some { t with service := some Service.fresh }))
      else refuse .notDefined s

def execPlaceInService (tank : Nat) (s : State) : Host.Outcome State Fault Refusal :=
  .next (serve (.placeInService tank) (answerPlaceInService tank) s)

/-- The tank withdrawn from service: its spill closed CUT, level and fault state forgotten (R9, R171). -/
def Tank.leaveService (t : Tank) (v : Service) : TankStep :=
  let spill := closeAtLastReport .cut v t.book
  { tank := { t with book := spill.book, service := none }, posts := spill.posts }

/-- The next mark of a tank set to NONE (R9, R126). -/
def State.clearMark (i : Fin 32) (s : State) : State :=
  { s with orders := s.orders.set i { s.orders[i] with mark := .noMark } }

/-- TAKE_OFFLINE (R9). -/
def answerTakeOffline (tank : Nat) (s : State) : Answer :=
  match indexIn 32 tank with
  | none => refuse .badIndex s
  | some i =>
    match s.tanks[i] with
    | none => refuse .notDefined s
    | some t =>
      match t.service with
      | none => refuse .notInService s
      | some v =>
        let r := t.leaveService v
        accept [] ((((s.withdraw fun j => j == i).clearMark i).setTank i (some r.tank)).postTank i r.posts)

def execTakeOffline (tank : Nat) (s : State) : Host.Outcome State Fault Refusal :=
  .next (serve (.takeOffline tank) (answerTakeOffline tank) s)

/-- Every notice pending for a tank is discarded; ATTN follows (R10, R185). -/
def State.discardTankNotices (i : Fin 32) (s : State) : State :=
  { s with notices := Notices.settled { s.notices with tanks := s.notices.tanks.set i { kinds := 0, detail := none } } }

/-- RETIRE_TANK (R10, R132). -/
def answerRetireTank (tank : Nat) (s : State) : Answer :=
  match indexIn 32 tank with
  | none => refuse .badIndex s
  | some i =>
    match s.tanks[i] with
    | none => refuse .notDefined s
    | some t =>
      if t.service.isSome then refuse .notOffline s
      else accept t.book.counters.bytes (((s.zeroOrders fun j => j == i).setTank i none).discardTankNotices i)

def execRetireTank (tank : Nat) (s : State) : Host.Outcome State Fault Refusal :=
  .next (serve (.retireTank tank) (answerRetireTank tank) s)

/-! ### Mode and inhibit -/

/-- The pending pair that SET_MODE writes (R11). -/
def pendingFor (mode : Mode) (value rMax : Nat) : ModePair :=
  match mode with
  | .manual => { mode := .manual, value := min value rMax }
  | .auto => { mode := .auto, value := 0 }

/-- SET_MODE (R11). Where the mode is invalid and the tank UNDEFINED, BAD_VALUE comes first: DESIGN CHOICE
(log 25). -/
def answerSetMode (tank mode value : Nat) (s : State) : Answer :=
  match indexIn 32 tank with
  | none => refuse .badIndex s
  | some i =>
    match Mode.ofCode mode with
    | none => refuse .badValue s
    | some m =>
      match s.tanks[i] with
      | none => refuse .notDefined s
      | some t =>
        let pair := pendingFor m value t.defn.rMax
        accept (bytesOf 2 pair.value) (s.setTank i (some { t with pendingMode := pair }))

def execSetMode (tank mode value : Nat) (s : State) : Host.Outcome State Fault Refusal :=
  .next (serve (.setMode tank mode value) (answerSetMode tank mode value) s)

/-- SET_INHIBIT (R14, R15). Where the flag is invalid and the tank UNDEFINED, BAD_VALUE comes first:
DESIGN CHOICE (log 25). -/
def answerSetInhibit (tank flag : Nat) (s : State) : Answer :=
  match indexIn 32 tank with
  | none => refuse .badIndex s
  | some i =>
    if 1 < flag then refuse .badValue s
    else match s.tanks[i] with
      | none => refuse .notDefined s
      | some t =>
        let flagged := { t with softInhibit := flag == 1 }
        accept (bytesOf 1 (flagCode (flagged.formInhibit s.pins.zinh).inhibited))
          ((s.setTank i (some flagged)).formInhibits fun j => j == i)

def execSetInhibit (tank flag : Nat) (s : State) : Host.Outcome State Fault Refusal :=
  .next (serve (.setInhibit tank flag) (answerSetInhibit tank flag) s)

/-- A change of a ZINH line: the effective inhibit of every defined tank of the zone is formed anew (R13, R15). -/
def zinhEvent (zone : Fin 4) (s : State) : State :=
  s.formInhibits (s.tankIs fun t => t.defn.zone == zone)

/-- The command is a change of level of one ZINH line; the pin follows also while RESET_N is asserted (logs 4 and 8). -/
def execZinhChange (zone : Fin 4) (asserted : Bool) (s : State) : Host.Outcome State Fault Refusal :=
  .next (if s.pins.zinh[zone] = asserted then s
    else whileReleased (zinhEvent zone) { s with pins := { s.pins with zinh := s.pins.zinh.set zone asserted } })

/-! ### READ_TANK -/

/-- The supervisor state that READ_TANK shows: that of an OFFLINE tank is fresh (R46, R59). -/
def Tank.supervisorState (t : Tank) : Supervisor :=
  match t.service with
  | some v => v.supervisor
  | none => Supervisor.fresh

/-- The definition part in READ_TANK, bytes 2 to 26 (section 10.6). -/
def TankDef.bytes (d : TankDef) : List Byte :=
  joinFields [1, 1, 1, 1, 2, 2, 2, 2, 2, 2, 1, 1, 2, 1, 2, 2]
    [d.catchment, d.zone, d.combine.code, d.basePriority, d.dryLevel, d.crestLevel, d.endHysteresis, d.rMax, d.rMin,
     d.fallMin, d.stallCount, d.faultReaction.code, d.reportTimeout, d.lostLimit, d.quietTime, d.confirmTime]

/-- The Drain Supervisor's part of READ_TANK, bytes 67 to 73 (R59, section 10.6). -/
def Supervisor.bytes (d : TankDef) (v : Supervisor) : List Byte :=
  joinFields [1, 1, 2, 1, 2] [v.stallCounter, v.goodCounter, v.snapshot.getD 0,
    bitsOf [v.snapshot.isSome, v.reportMark, v.stall, v.levelLost], probeRate d]

/-- The payload of READ_TANK for a defined tank (R19, R43, R59, section 10.6, 74 bytes). -/
def Tank.payload (s : State) (i : Fin 32) (t : Tank) : List Byte :=
  joinFields [1, 1] [i, (lifecycleOf (some t)).code] ++ t.defn.bytes ++
  joinFields [1, 1, 4, 4, 1, 2, 1, 2, 1, 1]
    [t.stagePoints.length, (t.rating.getD []).length, (t.stage.map StageTable.vDry).getD 0,
     (t.stage.map StageTable.vCrest).getD 0, t.inForce.mode.code, t.inForce.value, t.pendingMode.mode.code,
     t.pendingMode.value, bitsOf [t.softInhibit, s.pins.zinh[t.defn.zone], t.inhibited], t.opCode] ++
  t.levelState.bytes ++ bytesOf 1 t.levelState.expiries ++
  timerField 2 t.levelState.staleTimer (fun e => openSecondsLeft .stale e s.ds) ++
  t.supervisorState.bytes t.defn

/-- READ_TANK (R19). -/
def answerReadTank (tank : Nat) (s : State) : Answer :=
  match indexIn 32 tank with
  | none => refuse .badIndex s
  | some i =>
    match s.tanks[i] with
    | none => accept (List.replicate 74 0) s
    | some t => accept (t.payload s i) s

def execReadTank (tank : Nat) (s : State) : Host.Outcome State Fault Refusal :=
  .next (serve (.readTank tank) (answerReadTank tank) s)

end Sys2Proof.Machine
end

