-- ==== Sys2Proof/Machine/PortUnit.lean ====
section
/-! DEFINITION. The Request Port, the settings, the Notice Set's requests, and the requests of device time and
identity (spec 10). -/

namespace Sys2Proof.Machine

/-! ### Transactions -/

/-- The bytes of a reply frame: tag, status, length, payload (section 10.6). -/
def Reply.bytes (r : Reply) : List Byte :=
  r.tag :: BitVec.ofNat 8 r.status.code :: BitVec.ofNat 8 r.payload.length :: r.payload

/-- The frame that a FETCH shifts out: the stored reply in REPLY, a NOTHING frame otherwise (R183). -/
def Port.fetched : Port → List Byte
  | .reply r => r.bytes
  | .idle => Reply.bytes { tag := 0, status := .nothing, payload := [] }
  | .busy _ => Reply.bytes { tag := 0, status := .nothing, payload := [] }

/-- `n` bytes of a frame, 0 beyond its end (R183). -/
def padTo (n : Nat) (frame : List Byte) : List Byte :=
  (frame ++ List.replicate n 0).take n

/-- The beginning of a transaction: what it decides is held until the end (R180); while RESET_N is asserted the transaction is
disregarded (R192). A chip-select line that is asserted already does not begin another (log 4). -/
def beginTransaction (s : State) : State :=
  match s.transaction with
  | .absent => { s with transaction := if s.resetAsserted then .disregarded else .begun s.beginning }
  | .begun _ => s
  | .disregarded => s

/-- The beginning that a transaction ending now had. Where no command marked it, the transaction began at this same moment (log 5);
a disregarded one has none. -/
def State.begunAs (s : State) : Option Beginning :=
  match s.transaction with
  | .absent => some s.beginning
  | .begun b => some b
  | .disregarded => none

/-- The end of a transaction that showed the status byte of its beginning: an OVERRUN flag shown is cleared (R180). -/
def State.shown (b : Beginning) (out : List Byte) (s : State) : State :=
  { s with shiftedOut := b.statusByte :: out, overrun := s.overrun && !b.overrun }

/-- A status poll: nothing beyond the status byte (R180). -/
def pollEvent (b : Beginning) (s : State) : State :=
  s.shown b []

/-- The end of a FETCH of `clocked` bytes: after the status byte the frame of the port state at the beginning, and a reply that stood
then is released (R183). -/
def fetchEvent (b : Beginning) (clocked : Nat) (s : State) : State :=
  { s.shown b (padTo (clocked - 1) b.port.fetched) with
    port := match b.port with
      | .reply _ => .idle
      | .idle => s.port
      | .busy _ => s.port }

/-- The end of a request frame: taken and judged in IDLE or REPLY, a stored reply discarded; discarded with OVERRUN set in BUSY
(R181, R182). The bytes shifted out after the status byte are free (log 10). -/
def frameEvent (b : Beginning) (content : List Byte) (s : State) : State :=
  let count := content.length - 1
  let polled := { s.shown b ((List.range count).map fun k => Config.shiftedOutByte (s.freeCount + k)) with
    freeCount := s.freeCount + count }
  match s.port with
  | .busy _ => { polled with overrun := true }
  | .idle => { polled with port := .busy (judgeFrame content) }
  | .reply _ => { polled with port := .busy (judgeFrame content) }

/-- The end of a transaction whose content is these bytes, of the kind that R180 gives. A transaction without a whole byte has no
effect. -/
def transactionEvent (b : Beginning) (content : List Byte) (s : State) : State :=
  match content with
  | [] => s
  | [_] => pollEvent b s
  | first :: _ :: _ => if first = 0 then fetchEvent b content.length s else frameEvent b content s

/-- The release of the chip-select line: a transaction that is not disregarded has its effect (R180, R192). -/
def endTransaction (content : List Byte) (s : State) : State :=
  let ended := { s with transaction := .absent }
  match s.begunAs with
  | some b => if s.resetAsserted then ended else transactionEvent b content ended
  | none => ended

/-- A moment of a transaction whose whole bytes at its end are these. -/
def transactionMoment {α : Type} (content : α → List Byte) (moment : Moment α) (s : State) : State :=
  match moment with
  | .begins => beginTransaction s
  | .ends c => endTransaction (content c) s

def execStatusPoll (s : State) : Host.Outcome State Fault Refusal :=
  .next (endTransaction [0] s)

def execFetch (moment : Moment Nat) (s : State) : Host.Outcome State Fault Refusal :=
  .next (transactionMoment (fun clocked => List.replicate clocked 0) moment s)

def execRequestFrame (moment : Moment (List Byte)) (s : State) : Host.Outcome State Fault Refusal :=
  .next (transactionMoment id moment s)

/-- The end of BUSY for a frame that failed the port's own checks: its refusal is stored with its tag (R181). -/
def refusedFrameEvent (s : State) : State :=
  match s.port with
  | .busy (.refused tag status) => { s with port := .reply { tag := tag, status := status, payload := [] } }
  | .busy (.request _ _) => s
  | .idle => s
  | .reply _ => s

def execFrameRefusedByPort (s : State) : Host.Outcome State Fault Refusal :=
  .next (whileReleased refusedFrameEvent s)

/-! ### SET_LIMITS -/

/-- The range of a setting number (R184, R104, R82, R141, R174). -/
def settingRange : Nat → Nat × Nat
  | 1 => (30, 900)
  | 2 => (0, 65535)
  | 3 => (0, 65535)
  | 4 => (60, 86400)
  | 5 => (1, 60)
  | 6 => (10, 600)
  | 7 => (0, 60)
  | 8 => (0, 600)
  | 9 => (30, 900)
  | 10 => (300, 86400)
  | _ => (1, 72)

/-- The value used for a setting: clamped to its range (R184). -/
def settingUsed (number value : Nat) : Nat :=
  clamp (settingRange number).1 (settingRange number).2 value

/-- Every IN_SERVICE tank's imminent flag formed anew against the threshold, IMMINENT posted where it passes to set (R36). -/
def State.formImminents (s : State) : State :=
  let formed := fun v : Service => formImminent v.level.timeToSpill s.alloc.imminentThreshold
  (s.mapTanks fun _ t => t.mapService fun v => { v with level := { v.level with imminent := formed v } }).postTanks
    fun i => match s.serviceAt i with
      | some (_, v) => if formed v && !v.level.imminent then [.imminent] else []
      | none => []

/-- One setting written, taking effect as its owner specifies (R82, R104, R141, R174). -/
def State.writeSetting (number used : Nat) (s : State) : State :=
  match number with
  | 1 => { s with alloc := { s.alloc with period := used } }
  | 2 => { s with alloc := { s.alloc with guardBand := used } }
  | 3 => { s with alloc := { s.alloc with overrideBudget := used } }
  | 4 => State.formImminents { s with alloc := { s.alloc with imminentThreshold := used } }
  | 5 => { s with alloc := { s.alloc with settleTime := used } }
  | 6 => { s with alerts := { s.alerts with interval := used } }
  | 7 => { s with guard := { s.guard with filterTime := used } }
  | 8 => { s with guard := { s.guard with blankTime := used } }
  | 9 => { s with guard := { s.guard with offTime := used } }
  | 10 => { s with guard := { s.guard with longestHold := used } }
  | 11 => { s with windowHours := used }
  | _ => s

/-- The setting numbers lie in 1 to 11 and none appears twice (R184). -/
def settingNumbersOk (entries : List Point) : Bool :=
  entries.all (fun e => 1 ≤ e.x && e.x ≤ 11) && decide (entries.map Point.x).Nodup

/-- SET_LIMITS; an entry is a setting number with its value (R184). -/
def answerSetLimits (count : Nat) (body : List Byte) (s : State) : Answer :=
  if count = 0 ∨ 11 < count then refuse .badValue s
  else if body.length ≠ 5 * count then refuse .badLength s
  else
    let entries := pairsOf 1 4 count body
    if settingNumbersOk entries then
      accept (entries.flatMap fun e => joinFields [1, 4] [e.x, settingUsed e.x e.y])
        (entries.foldl (fun s e => s.writeSetting e.x (settingUsed e.x e.y)) s)
    else refuse .badValue s

def execSetLimits (count : Nat) (entries : List Byte) (s : State) : Host.Outcome State Fault Refusal :=
  .next (serve (.setLimits count entries) (answerSetLimits count entries) s)

/-! ### Notices -/

/-- SET_NOTICE_MASK; bits without a kind are disregarded (R186). -/
def answerSetNoticeMask (tankKinds catchmentKinds allocationKinds : Nat) (s : State) : Answer :=
  let n := { s.notices with
    tankMask := BitVec.ofNat 8 tankKinds
    catchmentMask := BitVec.ofNat 3 catchmentKinds
    allocationMask := BitVec.ofNat 7 allocationKinds }
  accept (joinFields [1, 1, 1] [n.tankMask.toNat, n.catchmentMask.toNat, n.allocationMask.toNat]) { s with notices := n }

def execSetNoticeMask (tankKinds catchmentKinds allocationKinds : Nat) (s : State) : Host.Outcome State Fault Refusal :=
  .next (serve (.setNoticeMask tankKinds catchmentKinds allocationKinds)
    (answerSetNoticeMask tankKinds catchmentKinds allocationKinds) s)

/-- The detail byte of a tank's entry: its close mark, or 0 (R185, R187). -/
def detailCode : Option CloseMark → Nat
  | some m => m.code
  | none => 0

/-- The entries of READ_NOTICES, four bytes each: allocation record, tanks, catchments (R187, section 10.6). -/
def Notices.entries (n : Notices) : List (List Byte) :=
  (if n.allocation = 0 then []
   else [joinFields [1, 1, 1, 1] [0, Config.unstated .allocationNoticeIndex, n.allocation.toNat,
     Config.unstated .allocationNoticeDetail]]) ++
  (List.finRange 32).flatMap (fun i : Fin 32 =>
    if n.tanks[i].kinds = 0 then []
    else [joinFields [1, 1, 1, 1] [1, i.val, n.tanks[i].kinds.toNat, detailCode n.tanks[i].detail]]) ++
  (List.finRange 8).flatMap (fun i : Fin 8 =>
    if n.catchments[i] = 0 then []
    else [joinFields [1, 1, 1, 1] [2, i.val, n.catchments[i].toNat, Config.unstated .catchmentNoticeDetail]])

/-- The Notice Set with nothing pending; the mask is kept (R187, R191). -/
def Notices.cleared (n : Notices) : Notices :=
  Notices.settled { n with
    allocation := 0, tanks := Vector.replicate 32 { kinds := 0, detail := none }, catchments := Vector.replicate 8 0 }

/-- A tank's entry after READ_NOTICES: an entry that was returned loses its kinds and its detail (R187). -/
def TankNotice.collected (e : TankNotice) : TankNotice :=
  if e.kinds = 0 then e else { kinds := 0, detail := none }

/-- The Notice Set after READ_NOTICES: exactly the kinds returned are removed, and ATTN follows (R187). -/
def Notices.collected (n : Notices) : Notices :=
  Notices.settled { n with
    allocation := 0, tanks := n.tanks.map TankNotice.collected, catchments := Vector.replicate 8 0 }

/-- READ_NOTICES (R187). -/
def answerReadNotices (s : State) : Answer :=
  accept (bytesOf 1 s.notices.entries.length ++ s.notices.entries.flatten) { s with notices := s.notices.collected }

def execReadNotices (s : State) : Host.Outcome State Fault Refusal :=
  .next (serve .readNotices answerReadNotices s)

/-! ### Device time and identity -/

/-- READ_TIME: both counts, taken together (R188). -/
def answerReadTime (s : State) : Answer :=
  accept (joinFields [4, 4] [s.now, s.ds]) s

def execReadTime (s : State) : Host.Outcome State Fault Refusal :=
  .next (serve .readTime answerReadTime s)

/-- IDENTIFY: family 3210, revision 1, protocol version 1, and the record counts (R190). -/
def answerIdentify (s : State) : Answer :=
  accept (joinFields [2, 1, 1, 1, 1, 1] [3210, 1, 1, 32, 12, 8]) s

def execIdentify (s : State) : Host.Outcome State Fault Refusal :=
  .next (serve .identify answerIdentify s)

end Sys2Proof.Machine
end

