-- ==== Sys2Proof/Machine/Timebase.lean ====
section
/-! DEFINITION. The Timebase's tick (spec 10, section 10.4), and what it does to the timers whose expiry has not yet been taken. -/

namespace Sys2Proof.Machine

/-- Every timer of the part. -/
def allExpiries : List Expiry :=
  (List.finRange 32).map .stale ++ (List.finRange 12).map .dryGap ++ [.evaluation] ++ (List.finRange 8).map .floor ++
    [.settle, .period, .filter, .blank, .off, .holdEnd]

/-- The end timer of a hold (R149). -/
def Hold.endTimer : Hold → Timer
  | .held _ _ _ timer => some timer
  | .overridden _ _ => none
  | .noHold => none

/-- The timer that an expiry belongs to (R189). -/
def State.timerOf (s : State) : Expiry → Timer
  | .stale i => (s.serviceAt i).bind fun p => p.2.level.staleTimer
  | .dryGap k => s.gauges[k].bind Gauge.dryTimer
  | .evaluation => s.alerts.evalTimer
  | .floor k => s.catchments[k].bind fun c => c.floor.map Floor.timer
  | .settle => s.alloc.settleTimer
  | .period => s.alloc.periodTimer
  | .filter => s.guard.trip.filterTimer
  | .blank => s.guard.trip.blankTimer
  | .off => s.guard.trip.offTimer
  | .holdEnd => s.guard.hold.endTimer

/-- What the part does at an expiry. -/
def expiryEvent : Expiry → State → State
  | .stale i => staleEvent i
  | .dryGap k => dryGapEvent k
  | .evaluation => evaluationEvent
  | .floor k => floorEvent k
  | .settle => settleEvent
  | .period => runEvent
  | .filter => filterEvent
  | .blank => blankEvent
  | .off => offEvent
  | .holdEnd => holdEndEvent

/-- The expiries that the count has reached and that have not been taken (R189). -/
def State.waiting (s : State) : List Expiry :=
  allExpiries.filter fun e => due (s.timerOf e) s.ds

/-- The waiting expiries in the order in which the part takes them, which is free (log 2). -/
def State.expiryOrder (s : State) : List Expiry :=
  s.waiting.insertionSort fun a b => Config.expiryRank s.freeCount a ≤ Config.expiryRank s.freeCount b

/-- The waiting expiries taken, one after another, each with its effect if its timer is still due. -/
def takeExpiries (s : State) : State :=
  { s.expiryOrder.foldl (fun t e => expiryEvent e t) s with freeCount := s.freeCount + s.waiting.length }

/-- The decisecond count advances, saturating at its maximum (R188). An expiry falls at the count its timer gives (R189), so those that
no command has taken at the count now ending are taken before it advances (log 2). -/
def tickEvent (s : State) : State :=
  { takeExpiries s with ds := satAdd max32 s.ds 1 }

def execDecisecondTick (s : State) : Host.Outcome State Fault Refusal :=
  .next (whileReleased tickEvent s)

end Sys2Proof.Machine
end

