-- ==== Sys2Proof/Machine/ResetUnit.lean ====
section
/-! DEFINITION. Power-on, RESET_N and CLEAR_STATE (R20, R21, R124, R157, R188, R191, R192). -/

namespace Sys2Proof.Machine

/-- A transaction that reset cuts short is abandoned and has no effect; the chip-select line stays asserted (R180). -/
def Transaction.cut : Transaction → Transaction
  | .absent => .absent
  | .begun _ => .disregarded
  | .disregarded => .disregarded

/-- The part in its reset state; the waiting commands, the lines and the free-value index are the model's own or outside. -/
def resetState (s : State) : State :=
  { State.held s.pins with
    pending := s.pending, freeCount := s.freeCount, transaction := s.transaction.cut }

/-- Power applied: every block takes its power-on state, with RESET_N asserted (R192, log 6). -/
def execPowerOn (s : State) : Host.Outcome State Fault Refusal :=
  .next (resetState s)

/-- RESET_N asserted: every block is held in its reset state (R192). -/
def execResetNAsserted (s : State) : Host.Outcome State Fault Refusal :=
  .next (resetState s)

/-- The release of RESET_N: the evaluation timer starts (R82), the CAP_SEL lines are taken without settling and B is that bank's
budget (R124), the Intake Guard takes INTAKE_HIGH and starts the filter if it is asserted (R157). -/
def releaseEvent (s : State) : State :=
  let lines := capSelNumber s.pins.capSel
  let released := { s with
    resetAsserted := false
    alerts := { s.alerts with evalTimer := startTimer s.ds s.alerts.interval }
    alloc := { s.alloc with observed := lines, selected := lines, budget := s.alloc.banks[lines] }
    guard := { s.guard with lineHigh := s.pins.intakeHigh } }
  enterArmed released

/-- A release while RESET_N is not asserted is no event (log 4). -/
def execResetNReleased (s : State) : Host.Outcome State Fault Refusal :=
  .next (if s.resetAsserted then releaseEvent s else s)

/-! ### CLEAR_STATE -/

/-- A tank after CLEAR_STATE: spill closed CUT, inhibit formed anew, level and fault state cleared, AWAIT_LEVEL
(R21, R45, R61, R171). -/
def Tank.clearState (lines : Vector Bool 4) (t : Tank) : Tank :=
  match t.service with
  | none => t.formInhibit lines
  | some v =>
    { t.formInhibit lines with
      book := (closeAtLastReport .cut v t.book).book
      service := some Service.fresh }

/-- A gauge after CLEAR_STATE (R77). -/
def clearGauges (s : State) : State :=
  { s with gauges := s.gauges.map fun g => g.map Gauge.endStorm }

/-- Every catchment after CLEAR_STATE, and the RAIN_ALERT line (R99). -/
def clearCatchments (s : State) : State :=
  State.formRainAlert { s with catchments := s.catchments.map fun c => c.map fun c => Catchment.fresh c.defn }

/-- The number of open events that CLEAR_STATE closes CUT (R191). -/
def State.openSpills (s : State) : Nat :=
  sumTanks fun i => if s.tankIs (fun t => t.openSpill.isSome) i then 1 else 0

/-- CLEAR_STATE on every block but the Intake Guard and the Notice Set: orders zeroed with the effects of R130, then the tanks
(R139, R21, R45, R61, R171), the Allocator STOPPED (R125), gauges and catchments (R77, R99). The notices that the closes post
are discarded by the same request (R191), so they are not written. -/
def clearBlocks (s : State) : State :=
  let tanks := (s.zeroOrders fun _ => true).mapTanks fun _ t => t.clearState s.pins.zinh
  clearCatchments (clearGauges (stopAllocator tanks))

/-- The Intake Guard after CLEAR_STATE: NONE and ARMED; the filter starts where the line is asserted (R158). -/
def clearGuard (s : State) : State :=
  enterArmed (s.setHold .noHold)

/-- CLEAR_STATE: every block clears its state, the Notice Set last (R191). -/
def answerClearState (s : State) : Answer :=
  let cleared := clearGuard (clearBlocks s)
  accept (bytesOf 1 s.openSpills) { cleared with notices := cleared.notices.cleared }

def execClearState (s : State) : Host.Outcome State Fault Refusal :=
  .next (serve .clearState answerClearState s)

end Sys2Proof.Machine
end

