-- ==== Sys2Proof/Machine/Dispatch.lean ====
section
/-! DEFINITION. One arm per command, each a call of the command's own meaning. -/

namespace Sys2Proof.Machine

def exec (i : Instr) (s : State) : Host.Outcome State Fault Refusal :=
  match i with
  | .powerOn => Sys2Proof.Machine.execPowerOn s
  | .resetNAsserted => Sys2Proof.Machine.execResetNAsserted s
  | .resetNReleased => Sys2Proof.Machine.execResetNReleased s
  | .decisecondTick => Sys2Proof.Machine.execDecisecondTick s
  | .statusPoll => Sys2Proof.Machine.execStatusPoll s
  | .fetch moment => Sys2Proof.Machine.execFetch moment s
  | .requestFrame moment => Sys2Proof.Machine.execRequestFrame moment s
  | .setLimits count entries => Sys2Proof.Machine.execSetLimits count entries s
  | .setBank bank budget => Sys2Proof.Machine.execSetBank bank budget s
  | .setNoticeMask tankKinds catchmentKinds allocationKinds => Sys2Proof.Machine.execSetNoticeMask tankKinds catchmentKinds allocationKinds s
  | .defineTank tank fields => Sys2Proof.Machine.execDefineTank tank fields s
  | .loadStageTable tank count points => Sys2Proof.Machine.execLoadStageTable tank count points s
  | .loadRatingTable tank count points => Sys2Proof.Machine.execLoadRatingTable tank count points s
  | .placeInService tank => Sys2Proof.Machine.execPlaceInService tank s
  | .takeOffline tank => Sys2Proof.Machine.execTakeOffline tank s
  | .retireTank tank => Sys2Proof.Machine.execRetireTank tank s
  | .defineGauge gauge depth debounce dryGap => Sys2Proof.Machine.execDefineGauge gauge depth debounce dryGap s
  | .retireGauge gauge => Sys2Proof.Machine.execRetireGauge gauge s
  | .defineCatchment catchment count body => Sys2Proof.Machine.execDefineCatchment catchment count body s
  | .retireCatchment catchment => Sys2Proof.Machine.execRetireCatchment catchment s
  | .reportLevel tank level age => Sys2Proof.Machine.execReportLevel tank level age s
  | .setMode tank mode value => Sys2Proof.Machine.execSetMode tank mode value s
  | .setInhibit tank flag => Sys2Proof.Machine.execSetInhibit tank flag s
  | .startAllocation => Sys2Proof.Machine.execStartAllocation s
  | .stopAllocation => Sys2Proof.Machine.execStopAllocation s
  | .hold duration => Sys2Proof.Machine.execHold duration s
  | .release => Sys2Proof.Machine.execRelease s
  | .resume => Sys2Proof.Machine.execResume s
  | .clearFault tank => Sys2Proof.Machine.execClearFault tank s
  | .ackAlert catchment => Sys2Proof.Machine.execAckAlert catchment s
  | .setForecast catchment level duration => Sys2Proof.Machine.execSetForecast catchment level duration s
  | .resetCounts tank => Sys2Proof.Machine.execResetCounts tank s
  | .resetCountsAll => Sys2Proof.Machine.execResetCountsAll s
  | .clearState => Sys2Proof.Machine.execClearState s
  | .readTank tank => Sys2Proof.Machine.execReadTank tank s
  | .readOrders => Sys2Proof.Machine.execReadOrders s
  | .readSpill tank => Sys2Proof.Machine.execReadSpill tank s
  | .readGauge gauge => Sys2Proof.Machine.execReadGauge gauge s
  | .readCatchment catchment => Sys2Proof.Machine.execReadCatchment catchment s
  | .readAllocation => Sys2Proof.Machine.execReadAllocation s
  | .readNotices => Sys2Proof.Machine.execReadNotices s
  | .readTime => Sys2Proof.Machine.execReadTime s
  | .identify => Sys2Proof.Machine.execIdentify s
  | .tipEdge gauge => Sys2Proof.Machine.execTipEdge gauge s
  | .zinhChange zone asserted => Sys2Proof.Machine.execZinhChange zone asserted s
  | .capSelChange line asserted => Sys2Proof.Machine.execCapSelChange line asserted s
  | .intakeHighChange asserted => Sys2Proof.Machine.execIntakeHighChange asserted s
  | .staleExpiry tank => Sys2Proof.Machine.execStaleExpiry tank s
  | .dryGapExpiry gauge => Sys2Proof.Machine.execDryGapExpiry gauge s
  | .evaluationExpiry => Sys2Proof.Machine.execEvaluationExpiry s
  | .floorExpiry catchment => Sys2Proof.Machine.execFloorExpiry catchment s
  | .settleExpiry => Sys2Proof.Machine.execSettleExpiry s
  | .allocationRun => Sys2Proof.Machine.execAllocationRun s
  | .filterExpiry => Sys2Proof.Machine.execFilterExpiry s
  | .blankExpiry => Sys2Proof.Machine.execBlankExpiry s
  | .offTimerExpiry => Sys2Proof.Machine.execOffTimerExpiry s
  | .holdEndExpiry => Sys2Proof.Machine.execHoldEndExpiry s
  | .frameRefusedByPort => Sys2Proof.Machine.execFrameRefusedByPort s

end Sys2Proof.Machine
end

