-- ==== Sys2Proof/Safety.lean ====
section
/-! DEFINITION. What the statements speak of: the moment at which a request is taken, the reply it leaves, the ranges and
shapes that the spec's tables give, and the laws that the spec's prose says the part keeps. -/

namespace Sys2Proof.Machine

/-! ### Requests -/

/-- RESET_N is released and the port is BUSY with exactly this request in hand: the moment at which it is taken (R181). -/
def State.takes (s : State) (tag : Byte) (i : Instr) : Prop :=
  s.resetAsserted = false ∧ s.port = .busy (.request tag i)

/-- The state with a reply stored under a tag (R181). -/
def State.replied (tag : Byte) (status : Status) (payload : List Byte) (s : State) : State :=
  { s with port := .reply { tag := tag, status := status, payload := payload } }

/-- The request is refused with a status: nothing changes but the reply (R181). -/
def RefusedWith (i : Instr) (s : State) (tag : Byte) (status : Status) : Prop :=
  exec i s = .next (s.replied tag status [])

/-- The payload lengths that a request code admits (section 10.6); the four requests with a count admit any length that reaches
the count field (R181). -/
def admitsLength (code length : Nat) : Prop :=
  (code = 1 ∧ 1 ≤ length) ∨ (code ∈ [5, 6, 12] ∧ 2 ≤ length) ∨ (code ∈ [2, 3] ∧ length = 3) ∨ (code = 4 ∧ length = 26) ∨
    (code ∈ [7, 8, 9, 11, 13, 22, 23, 25, 27, 29, 30, 31] ∧ length = 1) ∨ (code = 10 ∧ length = 7) ∨
    (code = 14 ∧ length = 5) ∨ (code ∈ [15, 19] ∧ length = 4) ∨ (code = 16 ∧ length = 2) ∨ (code = 24 ∧ length = 6) ∨
    (code ∈ [17, 18, 20, 21, 26, 28, 32, 33, 34, 35] ∧ length = 0)

/-- Fields one after another, each given as its width in bytes and its number (section 10.6). -/
def laidOut (fields : List (Nat × Nat)) : List Byte :=
  fields.flatMap fun f => bytesOf f.1 f.2

/-- The whole seconds of a timer field, rounded up, or all ones in `width` bytes where the timer is stopped (section 10.6). -/
def roundedUp (width ds : Nat) (timer : Timer) : Nat :=
  match timer with
  | some e => (e - ds + 9) / 10
  | none => 256 ^ width - 1

/-! ### Ranges and shapes -/

/-- Each field lies in its range of R1, and the two cross-field conditions hold. Catchment and zone are indices and are checked
apart (R2). -/
def FieldsInRange (f : TankFields) : Prop :=
  f.combine ≤ 1 ∧ f.basePriority ≤ 15 ∧ f.dryLevel ≤ 29999 ∧ f.crestLevel ∈ Set.Icc 1 30000 ∧ f.endHysteresis ≤ 500 ∧
    f.rMax ∈ Set.Icc 1 65535 ∧ f.fallMin ∈ Set.Icc 1 1000 ∧ f.stallCount ∈ [4, 16, 64] ∧ f.faultReaction ≤ 1 ∧
    f.reportTimeout ∈ Set.Icc 60 3600 ∧ f.lostLimit ∈ Set.Icc 1 8 ∧ f.quietTime ∈ Set.Icc 60 7200 ∧ f.confirmTime ≤ 600 ∧
    f.dryLevel < f.crestLevel ∧ f.rMin ≤ f.rMax

/-- The definition part holds the fields as given (R1, R2). -/
def TankDef.Holds (d : TankDef) (c : Fin 8) (z : Fin 4) (f : TankFields) : Prop :=
  d.catchment = c ∧ d.zone = z ∧ d.combine.code = f.combine ∧ d.basePriority.val = f.basePriority ∧
    d.dryLevel = f.dryLevel ∧ d.crestLevel = f.crestLevel ∧ d.endHysteresis = f.endHysteresis ∧ d.rMax = f.rMax ∧
    d.rMin = f.rMin ∧ d.fallMin = f.fallMin ∧ d.stallCount = f.stallCount ∧ d.faultReaction.code = f.faultReaction ∧
    d.reportTimeout = f.reportTimeout ∧ d.lostLimit = f.lostLimit ∧ d.quietTime = f.quietTime ∧ d.confirmTime = f.confirmTime

/-- A stage-storage table that LOAD_STAGE_TABLE accepts (R5). -/
def StageShape (count : Nat) (points : List Point) : Prop :=
  2 ≤ count ∧ count ≤ 12 ∧ (∀ p ∈ points, p.x ≤ 30000 ∧ p.y ≤ 4000000) ∧ points.Pairwise fun p q => p.x < q.x ∧ p.y ≤ q.y

/-- A spill rating table that LOAD_RATING_TABLE accepts (R6). -/
def RatingShape (count : Nat) (points : List Point) : Prop :=
  2 ≤ count ∧ count ≤ 8 ∧ (∀ p ∈ points, p.x ≤ 30000) ∧ points.head? = some { x := 0, y := 0 } ∧
    points.Pairwise fun p q => p.x < q.x ∧ p.y ≤ q.y

/-- The value that a setting number names (R184). -/
def State.setting (s : State) : Nat → Nat
  | 1 => s.alloc.period
  | 2 => s.alloc.guardBand
  | 3 => s.alloc.overrideBudget
  | 4 => s.alloc.imminentThreshold
  | 5 => s.alloc.settleTime
  | 6 => s.alerts.interval
  | 7 => s.guard.filterTime
  | 8 => s.guard.blankTime
  | 9 => s.guard.offTime
  | 10 => s.guard.longestHold
  | _ => s.windowHours

/-- One tank stands before another in grant order: by class, then base_priority, then index (R115). -/
def GrantBefore (s : State) (i j : Fin 32) : Prop :=
  ∃ p ∈ s.serviceAt i, ∃ q ∈ s.serviceAt j,
    tankClass s p.1 p.2 < tankClass s q.1 q.2 ∨ tankClass s p.1 p.2 = tankClass s q.1 q.2 ∧
      (p.1.defn.basePriority < q.1.defn.basePriority ∨ p.1.defn.basePriority = q.1.defn.basePriority ∧ i < j)

/-- What a change of a catchment's effective level does besides, with the notices it posts: a rise (R90), a fall (R91), nothing. -/
def EffectiveChange (now : Nat) (old new : Catchment) (posts : List CatchmentPost) : Prop :=
  (old.effective.code < new.effective.code →
    new.acknowledged = false ∧ new.raised = some now ∧ new.peak = new.lastIntensity ∧ posts = [.raised]) ∧
  (new.effective.code < old.effective.code →
    new.acknowledged = (if new.effective = .noAlert then false else old.acknowledged) ∧ new.raised = old.raised ∧
      posts = [.lowered]) ∧
  (new.effective = old.effective → new.acknowledged = old.acknowledged ∧ new.raised = old.raised ∧ posts = [])

/-- What one walk of a shed leaves of one buffer, tank by tank in the shed order of R119: `old` are the orders before, `new` after; the
allowance is B less the manual orders, and the account of a tank is S less what the tanks before it have given up (R120, R121).
In the list only automatic orders are visited (log 22). -/
def ShedLeaves (s : State) (b : Nat) (automatic manual : Fin 32 → Bool) (old new : Fin 32 → Nat) : Prop :=
  ∃ order : List (Fin 32),
    order = ((List.finRange 32).reverse.filter fun i => automatic i && old i != 0 && !s.alloc.runOrder.contains i) ++
      s.alloc.runOrder.reverse.filter automatic ∧
    (∀ i, i ∉ order → new i = old i) ∧
    ∀ before i after, order = before ++ i :: after → ∃ allowance account cut : Nat,
      allowance = b - (sumTanks fun j => if manual j then old j else 0) ∧
      account = (sumTanks fun j => if automatic j then old j else 0) - (before.map fun j => old j - new j).sum ∧
      cut = old i - min (old i) (account - allowance) ∧
      new i = if account ≤ allowance then old i else if cut < s.rMinAt i then 0 else cut

/-- What a change of its active order from `old` to `new` does to a tank: direction change and op state formed anew (R51, R130). -/
def ActiveChange (old new : Nat) (before after : Option Tank) : Prop :=
  (old = new → after = before) ∧
  (old ≠ new → after = before.map fun t => { t with service := t.service.map fun v => { v with
    supervisor := { v.supervisor with
      stallCounter := if old = 0 ∨ new = 0 then 0 else v.supervisor.stallCounter
      goodCounter := if old = 0 ∨ new = 0 then 0 else v.supervisor.goodCounter
      snapshot := if new = 0 then none else v.supervisor.snapshot }
    op := formOp t.defn v.level { v.supervisor with
      stallCounter := if old = 0 ∨ new = 0 then 0 else v.supervisor.stallCounter
      goodCounter := if old = 0 ∨ new = 0 then 0 else v.supervisor.goodCounter
      snapshot := if new = 0 then none else v.supervisor.snapshot } new } })

/-! ### Timers -/

/-- The command that is an expiry. -/
def commandOf : Expiry → Instr
  | .stale i => .staleExpiry i
  | .dryGap k => .dryGapExpiry k
  | .evaluation => .evaluationExpiry
  | .floor k => .floorExpiry k
  | .settle => .settleExpiry
  | .period => .allocationRun
  | .filter => .filterExpiry
  | .blank => .blankExpiry
  | .off => .offTimerExpiry
  | .holdEnd => .holdEndExpiry

/-- Seconds remaining where the rule states no rounding: one of the two whole seconds that enclose the exact value (log 9). -/
def EnclosedSeconds (expiry ds left : Nat) : Prop :=
  (expiry - ds) / 10 ≤ left ∧ left ≤ (expiry - ds + 9) / 10

/-! ### Laws of the tanks -/

/-- The op state of every IN_SERVICE tank is the one that R16 gives for its level, faults and active order. -/
def OpStatesFormed (s : State) : Prop :=
  ∀ i : Fin 32, ∀ p ∈ s.serviceAt i, p.2.op = formOp p.1.defn p.2.level p.2.supervisor s.orders[i].active

/-- The tank at an index may hold orders: it is IN_SERVICE, not FAULTED and not effectively inhibited (R127). -/
def MayHoldOrders (s : State) (i : Fin 32) : Prop :=
  ∃ p ∈ s.serviceAt i, p.2.op ≠ .faulted ∧ p.1.inhibited = false

/-- The order laws of R127: between 0 and Rmax, an automatic order 0 or at least Rmin, and none where the tank may not hold one;
the manual values are within Rmax (R3, R11). -/
def OrdersWithinLimits (s : State) : Prop :=
  ∀ i : Fin 32,
    (∀ t ∈ s.tanks[i], t.inForce.value ≤ t.defn.rMax ∧ t.pendingMode.value ≤ t.defn.rMax ∧
      s.orders[i].active ≤ t.defn.rMax ∧ s.orders[i].next ≤ t.defn.rMax ∧
      (t.inForce.mode = .auto → s.orders[i].active = 0 ∨ t.defn.rMin ≤ s.orders[i].active) ∧
      (s.orders[i].mark = .auto → s.orders[i].next = 0 ∨ t.defn.rMin ≤ s.orders[i].next)) ∧
    (¬MayHoldOrders s i → s.orders[i].active = 0 ∧ s.orders[i].next = 0)

/-- While TRIPPED, every tank whose mode in force is AUTO has both orders 0 (R133). -/
def TripHoldsOrders (s : State) : Prop :=
  s.guard.isTripped = true → ∀ i : Fin 32, ∀ t ∈ s.tanks[i], t.inForce.mode = .auto →
    s.orders[i].active = 0 ∧ s.orders[i].next = 0

/-- A next order marked AUTO that is not 0 belongs to a tank whose mode in force is AUTO (R112, R128). -/
def AutoMarksInForce (s : State) : Prop :=
  ∀ i : Fin 32, s.orders[i].mark = .auto → s.orders[i].next ≠ 0 → s.autoActive i = true

/-- The run order list holds no duplicate, and only tanks that are IN_SERVICE, in AUTO in force, not FAULTED and not inhibited
(R117). -/
def RunListLawful (s : State) : Prop :=
  s.alloc.runOrder.Nodup ∧ ∀ i ∈ s.alloc.runOrder, MayHoldOrders s i ∧ s.autoActive i = true

/-- The sum of the active orders of tanks whose mode in force satisfies `p` (R120). -/
def activeSum (s : State) (p : Fin 32 → Bool) : Nat :=
  sumTanks fun i => if p i then s.orders[i].active else 0

/-- The sum of the next orders whose mark satisfies `p` (R121). -/
def nextSum (s : State) (p : Fin 32 → Bool) : Nat :=
  sumTanks fun i => if p i then s.orders[i].next else 0

/-- In both buffers the automatic orders fit into B less the manual orders (R120, R121). -/
def OrdersWithinBudget (s : State) : Prop :=
  activeSum s s.autoActive ≤ s.alloc.budget - activeSum s s.manualActive ∧
    nextSum s s.autoNext ≤ s.alloc.budget - nextSum s s.manualNext

/-- While STOPPED every order is 0 and the run order list is empty, and the part in reset is STOPPED (R106, R120, R124). -/
def StoppedHoldsNothing (s : State) : Prop :=
  (s.alloc.running = false → s.alloc.runOrder = [] ∧ ∀ i : Fin 32, s.orders[i].active = 0 ∧ s.orders[i].next = 0) ∧
    (s.resetAsserted = true → s.alloc.running = false)

/-- The five counters stay within their maxima, and counted_events never exceeds spills_begun (R159, R173). -/
def CountersLawful (s : State) : Prop :=
  ∀ i : Fin 32, ∀ t ∈ s.tanks[i],
    t.book.counters.counted ≤ t.book.counters.begun ∧ t.book.counters.begun ≤ 65535 ∧
      t.book.counters.seconds ≤ 4294967295 ∧ t.book.counters.litres < 2 ^ 48 ∧ t.book.counters.restricted ≤ 65535

/-- The bounds that the Level Processor and the Drain Supervisor keep for an IN_SERVICE tank: levels clamped (R24), net rate within
±65535 (R33), expiries within lost_limit (R38), both stall counters within N (R46), and no snapshot where the active order is 0
(R50). -/
def LevelsLawful (s : State) : Prop :=
  ∀ i : Fin 32, ∀ p ∈ s.serviceAt i,
    (∀ n ∈ p.2.level.lastLevel, n ≤ 30000) ∧ (∀ e ∈ p.2.level.netRate, -65535 ≤ e ∧ e ≤ 65535) ∧
      p.2.level.expiries ≤ p.1.defn.lostLimit ∧ p.2.supervisor.stallCounter ≤ p.1.defn.stallCount ∧
      p.2.supervisor.goodCounter ≤ p.1.defn.stallCount ∧
      (s.orders[i].active = 0 → p.2.supervisor.snapshot = none)

/-! ### Laws of the rain side -/

/-- The storm fields of a gauge agree with its storm state (R62). -/
def StormsLawful (s : State) : Prop :=
  ∀ k : Fin 12, ∀ g ∈ s.gauges[k],
    (g.storm = .dry → g.stormDepth = 0 ∧ g.tips = 0 ∧ g.interval = none ∧ g.tipDepth = none ∧ g.dryTimer = none) ∧
    (g.storm = .wet → 1 ≤ g.tips ∧ g.tipDepth.isSome ∧ g.lastTip.isSome ∧ g.dryTimer.isSome)

/-- The effective level of every catchment is the greater of its gauge-derived level and its floor (R89), and the hold-down start is
absent while the gauge-derived level is NONE (R86). -/
def AlertsLawful (s : State) : Prop :=
  ∀ k : Fin 8, ∀ c ∈ s.catchments[k],
    c.effective.code = max c.gaugeLevel.code ((c.floor.map fun f => f.level.code).getD 0) ∧
      (c.gaugeLevel = .noAlert → c.holdStart = none)

/-- A defined tank names a defined catchment (R95), and every gauge that a defined catchment lists is defined (R74). -/
def NamesDefined (s : State) : Prop :=
  (∀ i : Fin 32, ∀ t ∈ s.tanks[i], s.catchments[t.defn.catchment].isSome) ∧
    ∀ k : Fin 8, ∀ c ∈ s.catchments[k], ∀ g ∈ c.defn.gauges, s.gauges[g].isSome

/-! ### Laws of the lines, the selection and the hold -/

/-- ATTN is asserted exactly while a notice is pending (R185). -/
def AttnFollows (n : Notices) : Prop :=
  n.attn = true ↔ n.allocation ≠ 0 ∨ (∃ i : Fin 32, n.tanks[i].kinds ≠ 0) ∨ ∃ k : Fin 8, n.catchments[k] ≠ 0

/-- ATTN follows the pending notices (R185), and RAIN_ALERT is asserted exactly while some defined catchment stands at WARNING or
SEVERE (R94). -/
def LinesFollow (s : State) : Prop :=
  AttnFollows s.notices ∧
    (s.alerts.rainAlert = true ↔ ∃ k : Fin 8, ∃ c ∈ s.catchments[k], c.effective = .warning ∨ c.effective = .severe)

/-- The part holds each line as it stands: the effective inhibit of every defined tank follows its zone line and soft flag (R13), the
CAP_SEL observed value is the number the lines present (R101), and the line level is that of INTAKE_HIGH (R140). In reset no
tank is defined (R20). -/
def LinesTaken (s : State) : Prop :=
  (s.resetAsserted = true → ∀ i : Fin 32, s.tanks[i] = none) ∧
    (∀ i : Fin 32, ∀ t ∈ s.tanks[i], t.inhibited = formInhibit t.defn.combine s.pins.zinh[t.defn.zone] t.softInhibit) ∧
    (s.resetAsserted = false →
      s.alloc.observed = capSelNumber s.pins.capSel ∧ s.guard.lineHigh = s.pins.intakeHigh)

/-- B is the budget of the bank in force, and the settle timer runs exactly while the observed value differs from the value in force
(R101 to R103). -/
def SelectionLawful (s : State) : Prop :=
  s.alloc.budget = s.alloc.banks[s.alloc.selected] ∧
    (s.alloc.settleTimer.isSome ↔ s.alloc.observed ≠ s.alloc.selected) ∧
    (s.resetAsserted = true → s.alloc.settleTimer = none)

/-- A hold's end never lies later than its limit nor before its start (R149). -/
def HoldLawful (s : State) : Prop :=
  ∀ start limit stop timer, s.guard.hold = .held start limit stop timer → start ≤ stop ∧ stop ≤ limit

/-- The period timer runs exactly while RUNNING (R107), and the evaluation timer exactly while RESET_N is released (R82, R98). -/
def TimersLawful (s : State) : Prop :=
  (s.alloc.periodTimer.isSome ↔ s.alloc.running = true) ∧ (s.alerts.evalTimer.isSome ↔ s.resetAsserted = false)

/-- Every setting lies in its range (R184, R82, R104, R141, R174), and so do the times of every defined tank and gauge (R1, R63). -/
def SettingsInRange (s : State) : Prop :=
  s.alloc.period ∈ Set.Icc 30 900 ∧ s.alloc.guardBand ≤ 65535 ∧ s.alloc.overrideBudget ≤ 65535 ∧
    s.alloc.imminentThreshold ∈ Set.Icc 60 86400 ∧ s.alloc.settleTime ∈ Set.Icc 1 60 ∧
    s.alerts.interval ∈ Set.Icc 10 600 ∧ s.guard.filterTime ≤ 60 ∧ s.guard.blankTime ≤ 600 ∧
    s.guard.offTime ∈ Set.Icc 30 900 ∧ s.guard.longestHold ∈ Set.Icc 300 86400 ∧ s.windowHours ∈ Set.Icc 1 72 ∧
    (∀ i : Fin 32, ∀ t ∈ s.tanks[i], t.defn.reportTimeout ∈ Set.Icc 60 3600 ∧ t.defn.quietTime ∈ Set.Icc 60 7200 ∧
      t.defn.confirmTime ≤ 600) ∧
    ∀ k : Fin 12, ∀ g ∈ s.gauges[k], g.debounce ∈ Set.Icc 1 50 ∧ g.dryGap ∈ Set.Icc 600 86400

/-- No running timer's expiry lies behind the count: each is taken at the count its timer gives and at no later one (R189). -/
def TimersAhead (s : State) : Prop :=
  ∀ e n, s.timerOf e = some n → s.ds ≤ n

end Sys2Proof.Machine
end

