-- ==== Sys2Proof/Certificates/Slice0/Obligations.lean ====
section
/-! DEFINITION. The statements for the provers, in the order of OBLIGATIONS.json. Numbers of logs are those of notes/assumptions. -/

section
open Sys2Proof Sys2Proof.Machine

/-! ### The machine and the port -/

/-- A step takes the command at the front of the queue on the state with the queue's rest; an empty queue idles, which is the
model's choice (log 1). -/
def Obligations.StepTakesFrontCommand : Prop :=
  (∀ (c : Instr) (rest : List Instr) (s : State),
    step { s with pending := c :: rest } = exec c { s with pending := rest }) ∧
  ∀ s : State, step { s with pending := [] } = .next { s with pending := [] }

/-- Every command has a next state, and none touches the queue of waiting commands. The queue is the model's own, and that every
command leaves it alone, POWER_ON and RESET_N_ASSERTED included, is the model's choice (logs 1 and 24). -/
def Obligations.EveryCommandAnswers : Prop :=
  ∀ (c : Instr) (s : State), ∃ t, exec c s = .next t ∧ t.pending = s.pending

/-- The code and the payload of every request (sections 10.2 and 10.6), the frame that spells it, and that this frame, whatever bytes
follow it, is judged to be that request where it is well formed (R181). -/
def Obligations.FrameSpellsRequest : Prop :=
  (∀ i : Instr, i.codeAndPayload = match i with
    | .setLimits n entries => some (1, laidOut [(1, n)] ++ entries)
    | .setBank bank budget => some (2, laidOut [(1, bank), (2, budget)])
    | .setNoticeMask tank catchment allocation => some (3, laidOut [(1, tank), (1, catchment), (1, allocation)])
    | .defineTank tank f => some (4, laidOut
        [(1, tank), (1, f.catchment), (1, f.zone), (1, f.combine), (1, f.basePriority), (2, f.dryLevel), (2, f.crestLevel),
         (2, f.endHysteresis), (2, f.rMax), (2, f.rMin), (2, f.fallMin), (1, f.stallCount), (1, f.faultReaction),
         (2, f.reportTimeout), (1, f.lostLimit), (2, f.quietTime), (2, f.confirmTime)])
    | .loadStageTable tank n points => some (5, laidOut [(1, tank), (1, n)] ++ points)
    | .loadRatingTable tank n points => some (6, laidOut [(1, tank), (1, n)] ++ points)
    | .placeInService tank => some (7, laidOut [(1, tank)])
    | .takeOffline tank => some (8, laidOut [(1, tank)])
    | .retireTank tank => some (9, laidOut [(1, tank)])
    | .defineGauge gauge depth debounce gap => some (10, laidOut [(1, gauge), (1, depth), (1, debounce), (4, gap)])
    | .retireGauge gauge => some (11, laidOut [(1, gauge)])
    | .defineCatchment catchment n body => some (12, laidOut [(1, catchment), (1, n)] ++ body)
    | .retireCatchment catchment => some (13, laidOut [(1, catchment)])
    | .reportLevel tank level age => some (14, laidOut [(1, tank), (2, level), (2, age)])
    | .setMode tank mode value => some (15, laidOut [(1, tank), (1, mode), (2, value)])
    | .setInhibit tank flag => some (16, laidOut [(1, tank), (1, flag)])
    | .startAllocation => some (17, [])
    | .stopAllocation => some (18, [])
    | .hold duration => some (19, laidOut [(4, duration)])
    | .release => some (20, [])
    | .resume => some (21, [])
    | .clearFault tank => some (22, laidOut [(1, tank)])
    | .ackAlert catchment => some (23, laidOut [(1, catchment)])
    | .setForecast catchment level duration => some (24, laidOut [(1, catchment), (1, level), (4, duration)])
    | .resetCounts tank => some (25, laidOut [(1, tank)])
    | .resetCountsAll => some (25, laidOut [(1, 255)])
    | .clearState => some (26, [])
    | .readTank tank => some (27, laidOut [(1, tank)])
    | .readOrders => some (28, [])
    | .readSpill tank => some (29, laidOut [(1, tank)])
    | .readGauge gauge => some (30, laidOut [(1, gauge)])
    | .readCatchment catchment => some (31, laidOut [(1, catchment)])
    | .readAllocation => some (32, [])
    | .readNotices => some (33, [])
    | .readTime => some (34, [])
    | .identify => some (35, [])
    | _ => none) ∧
  (∀ (i : Instr) (tag : Byte), i.frame tag = (i.codeAndPayload).map fun p =>
    BitVec.ofNat 8 p.1 :: tag :: BitVec.ofNat 8 p.2.length :: p.2) ∧
  ∀ (i : Instr) (tag : Byte) (frame extra : List Byte),
    i.wellFormed = true → i.frame tag = some frame → judgeFrame (frame ++ extra) = .request tag i

/-- The port's own checks of a frame, in the order of R181, with the lengths of section 10.6. -/
def Obligations.PortJudgesFrames : Prop :=
  (∀ code : Byte, judgeFrame [code] = .refused 0 .badLength) ∧
  (∀ code tag : Byte, judgeFrame [code, tag] = .refused tag .badLength) ∧
  (∀ (code tag length : Byte) (rest : List Byte), rest.length < length.toNat →
    judgeFrame (code :: tag :: length :: rest) = .refused tag .badLength) ∧
  (∀ (code tag length : Byte) (rest : List Byte), length.toNat ≤ rest.length →
    ((code = 0 ∨ 35 < code.toNat) → judgeFrame (code :: tag :: length :: rest) = .refused tag .unknownRequest) ∧
    (code ≠ 0 → code.toNat ≤ 35 →
      (¬admitsLength code.toNat length.toNat →
        judgeFrame (code :: tag :: length :: rest) = .refused tag .badLength) ∧
      (admitsLength code.toNat length.toNat →
        ∃ i, judgeFrame (code :: tag :: length :: rest) = .request tag i ∧
          parsePayload code.toNat (rest.take length.toNat) = some i)))

/-- Transactions (R180 to R183). A beginning holds the port state, the OVERRUN flag and ATTN as they then stand, and the status byte is
formed of these; while RESET_N is asserted the transaction is disregarded (R192). At the end a poll shifts out the status byte; a
FETCH the frame of the port state at the beginning; a request frame is judged with the port state at the end, taken in IDLE and
REPLY and discarded with OVERRUN in BUSY; an OVERRUN flag that was shown is cleared before. A frame that fails the port's own
checks has its refusal stored at the end of BUSY. The status codes are those of section 10.2. Deduced: a beginning within a
transaction is no event (log 4), and the end of a transaction that began while RESET_N was asserted changes nothing else also
where it comes after the release (log 8). The model's choices: an end that no command marked a beginning for begins at that
moment (log 5), and the bytes after the status byte of a request frame are free (log 10). -/
def Obligations.TransactionsTakenAndShiftedOut : Prop :=
  [Status.ok, .nothing, .unknownRequest, .badLength, .badIndex, .badValue, .badTable, .notDefined, .notOffline, .notInService,
    .inUse, .oldReport, .notHeld, .holdLocked, .notTripped, .noAlert, .stopped].map Status.code = List.range 17 ∧
  (∀ b : Beginning, b.statusByte.toNat =
    (match b.port with | .idle => 0 | .busy _ => 1 | .reply _ => 2) + (if b.overrun then 4 else 0) + (if b.attn then 8 else 0)) ∧
  (∀ c ∈ [Instr.fetch .begins, Instr.requestFrame .begins], ∀ s : State,
    (s.transaction = .absent → s.resetAsserted = false → exec c s = .next { s with
      transaction := .begun { port := s.port, overrun := s.overrun, attn := s.notices.attn } }) ∧
    (s.transaction = .absent → s.resetAsserted = true → exec c s = .next { s with transaction := .disregarded }) ∧
    (s.transaction ≠ .absent → exec c s = .next s)) ∧
  (∀ (s : State) (n : Nat) (content : List Byte), s.transaction = .disregarded ∨ s.resetAsserted = true →
    exec .statusPoll s = .next { s with transaction := .absent } ∧
    exec (.fetch (.ends n)) s = .next { s with transaction := .absent } ∧
    exec (.requestFrame (.ends content)) s = .next { s with transaction := .absent }) ∧
  (∀ (s t : State) (b : Beginning), s.resetAsserted = false →
    s.transaction = .begun b ∨
      s.transaction = .absent ∧ b = { port := s.port, overrun := s.overrun, attn := s.notices.attn } →
    t = { s with transaction := .absent, overrun := s.overrun && !b.overrun } →
    exec .statusPoll s = .next { t with shiftedOut := [b.statusByte] } ∧
    (∀ n : Nat, 2 ≤ n →
      (∀ r, b.port = .reply r → exec (.fetch (.ends n)) s = .next { t with
        port := .idle
        shiftedOut := b.statusByte :: ((r.tag :: BitVec.ofNat 8 r.status.code :: BitVec.ofNat 8 r.payload.length :: r.payload) ++
          List.replicate (n - 1) 0).take (n - 1) }) ∧
      ((∀ r, b.port ≠ .reply r) → exec (.fetch (.ends n)) s = .next { t with
        shiftedOut := b.statusByte :: (([0, 1, 0] : List Byte) ++ List.replicate (n - 1) 0).take (n - 1) })) ∧
    ∀ content : List Byte, 2 ≤ content.length → content.head? ≠ some 0 →
      ∃ out : List Byte, out.length = content.length ∧ out.head? = some b.statusByte ∧
        ((∀ h, s.port ≠ .busy h) → exec (.requestFrame (.ends content)) s = .next { t with
          port := .busy (judgeFrame content), shiftedOut := out, freeCount := s.freeCount + (content.length - 1) }) ∧
        (∀ h, s.port = .busy h → exec (.requestFrame (.ends content)) s = .next { t with
          overrun := true, shiftedOut := out, freeCount := s.freeCount + (content.length - 1) })) ∧
  ∀ (s : State) (tag : Byte) (status : Status), s.resetAsserted = false → s.port = .busy (.refused tag status) →
    exec .frameRefusedByPort s = .next (s.replied tag status [])

/-- A request in hand is answered under its tag, and a refusal changes nothing but the reply (R181); a request that is not in hand is
no event, which is deduced (log 3). -/
def Obligations.RequestsAnswerInHand : Prop :=
  ∀ (c : Instr) (s : State), c.codeAndPayload.isSome →
    (∀ tag, s.takes tag c → ∃ t r, exec c s = .next t ∧ t.port = .reply r ∧ r.tag = tag ∧
      (r.status ≠ .ok → r.payload = [] ∧ t = s.replied tag r.status [])) ∧
    ((∀ tag, ¬s.takes tag c) → exec c s = .next s)

/-! ### Reset, time, identity -/

/-- Power-on and RESET_N put every block in its reset state, and a transaction under way is abandoned (R180); the queue, the lines and
the free-value index are the model's own or outside the part, and the values that the CAP_SEL and INTAKE_HIGH fields show in
reset are the model's choice (logs 6, 8 and 24). -/
def Obligations.ResetHoldsEveryBlock : Prop :=
  ∀ c ∈ [Instr.powerOn, Instr.resetNAsserted], ∀ s : State, exec c s = .next
    { pending := s.pending, pins := s.pins, freeCount := s.freeCount, resetAsserted := true, ds := 0, port := .idle,
      overrun := false, transaction := if s.transaction = .absent then .absent else .disregarded, shiftedOut := []
      tanks := Vector.replicate 32 none
      orders := Vector.replicate 32 { active := 0, next := 0, mark := .noMark, activeChanged := false }
      gauges := Vector.replicate 12 none, catchments := Vector.replicate 8 none
      alerts := { evalTimer := none, interval := 60, rainAlert := false }
      alloc := { running := false, banks := Vector.replicate 8 0, observed := 0, selected := 0, settleTimer := none,
                 budget := 0, period := 120, guardBand := 0, overrideBudget := 0, imminentThreshold := 1800, settleTime := 5,
                 periodTimer := none, runOrder := [], overrun := false, last := none }
      guard := { trip := .armed none, lineHigh := false, tripCount := 0, extensionCount := 0, filterTime := 5,
                 blankTime := 60, offTime := 120, longestHold := 3600, hold := .noHold }
      windowHours := 24
      notices := { allocation := 0, tanks := Vector.replicate 32 { kinds := 0, detail := none },
                   catchments := Vector.replicate 8 0, allocationMask := BitVec.allOnes 7, tankMask := BitVec.allOnes 8,
                   catchmentMask := BitVec.allOnes 3, attn := false } }

/-- At the release of RESET_N the evaluation timer starts (R82), the CAP_SEL lines are taken without settling (R124) and INTAKE_HIGH is
taken, starting the filter if it is asserted (R157). Chip-select may be asserted meanwhile: the transaction that began in reset or
that RESET_N cut short stays disregarded (R180, R192), which is deduced (log 8), and the bytes last shifted out stand. With every
line low the release leaves the model's state after reset (log 7). -/
def Obligations.ReleaseTakesTheLines : Prop :=
  (∀ (pins : Pins) (pending : List Instr) (n : Nat) (t : Transaction) (out : List Byte) (k : Fin 8),
    t = .absent ∨ t = .disregarded →
    k.val = (if pins.capSel[0] then 1 else 0) + (if pins.capSel[1] then 2 else 0) + (if pins.capSel[2] then 4 else 0) →
    exec .resetNReleased { State.held pins with pending := pending, freeCount := n, transaction := t, shiftedOut := out } =
      .next { State.held pins with
        pending := pending, freeCount := n, transaction := t, shiftedOut := out, resetAsserted := false
        alerts := { Alerts.atReset with evalTimer := some 600 }
        alloc := { Allocator.atReset with observed := k, selected := k }
        guard := { Guard.atReset with
          lineHigh := pins.intakeHigh, trip := .armed (if pins.intakeHigh then some 50 else none) } }) ∧
  exec .resetNReleased (State.held Pins.low) = .next State.reset

/-- While RESET_N is asserted no command but power and RESET_N itself changes anything in the part: only the lines follow, chip-select
among them (R76, R192; log 8). -/
def Obligations.AssertedResetDisregardsEvents : Prop :=
  ∀ (c : Instr) (s : State), s.resetAsserted = true → c ≠ .powerOn → c ≠ .resetNAsserted → c ≠ .resetNReleased →
    ∃ t, exec c s = .next t ∧ t = { s with pins := t.pins, transaction := t.transaction } ∧
      ((∀ z a, c ≠ .zinhChange z a) → (∀ l a, c ≠ .capSelChange l a) → (∀ a, c ≠ .intakeHighChange a) → t.pins = s.pins) ∧
      (c ≠ .statusPoll → (∀ m, c ≠ .fetch m) → (∀ m, c ≠ .requestFrame m) → t.transaction = s.transaction)

/-- The decisecond count advances and saturates, the seconds count is its tenth part, and READ_TIME shows both (R188). An expiry command
has its effect exactly where its timer runs and the count has reached its value (R189), and the tick takes those that no command
has taken, each once, before it advances the count; their order is free (log 2). -/
def Obligations.DeviceTimeAdvances : Prop :=
  (∀ s : State, s.resetAsserted = false → ∃ (order : List Expiry) (u : State),
    order.Nodup ∧ (∀ e, e ∈ order ↔ ∃ n, s.timerOf e = some n ∧ n ≤ s.ds) ∧
    u = order.foldl (fun t e => expiryEvent e t) s ∧
    exec .decisecondTick s = .next { u with
      ds := if s.ds < 4294967295 then s.ds + 1 else 4294967295, freeCount := s.freeCount + order.length }) ∧
  (∀ (e : Expiry) (s : State), s.resetAsserted = false →
    exec (commandOf e) s = .next (expiryEvent e s) ∧ ((∀ n, s.timerOf e = some n → s.ds < n) → expiryEvent e s = s)) ∧
  ∀ (s : State) (tag : Byte), s.takes tag .readTime →
    exec .readTime s = .next (s.replied tag .ok (bytesOf 4 (s.ds / 10) ++ bytesOf 4 s.ds))

/-- IDENTIFY carries no payload, answers family 3210, revision 1, protocol version 1 and the record counts, and changes nothing
(R190). -/
def Obligations.IdentifyAnswersFamily : Prop :=
  (∀ payload : List Byte, parsePayload 35 payload = if payload = [] then some .identify else none) ∧
  ∀ (s : State) (tag : Byte), s.takes tag .identify →
    exec .identify s = .next (s.replied tag .ok (bytesOf 2 3210 ++ [1, 1, 32, 12, 8]))

/-! ### Settings and notices -/

/-- A counted list of pairs is read pair by pair. SET_LIMITS: its checks in order, each named setting clamped and written, and a new
imminent threshold forms every imminent flag anew, with IMMINENT posted where it passes from clear to set (R184, R36). -/
def Obligations.SettingsClampedAndWritten : Prop :=
  (∀ (xWidth yWidth n x y : Nat) (rest : List Byte), x < 256 ^ xWidth → y < 256 ^ yWidth →
    pairsOf xWidth yWidth 0 rest = [] ∧
    pairsOf xWidth yWidth (n + 1) (bytesOf xWidth x ++ bytesOf yWidth y ++ rest) =
      { x := x, y := y } :: pairsOf xWidth yWidth n rest) ∧
  (∀ row ∈ [(1, 30, 900), (2, 0, 65535), (3, 0, 65535), (4, 60, 86400), (5, 1, 60), (6, 10, 600), (7, 0, 60), (8, 0, 600),
      (9, 30, 900), (10, 300, 86400), (11, 1, 72)], ∀ v : Nat, settingUsed row.1 v = max row.2.1 (min row.2.2 v)) ∧
  (∀ (spill : TimeToSpill) (threshold : Nat),
    formImminent spill threshold = true ↔ ∃ n, spill = .seconds n ∧ n ≤ threshold) ∧
  ∀ (s : State) (tag : Byte) (n : Nat) (body : List Byte), s.takes tag (.setLimits n body) →
    (n = 0 ∨ 11 < n → RefusedWith (.setLimits n body) s tag .badValue) ∧
    (1 ≤ n → n ≤ 11 → body.length ≠ 5 * n → RefusedWith (.setLimits n body) s tag .badLength) ∧
    (1 ≤ n → n ≤ 11 → body.length = 5 * n →
      (¬((∀ e ∈ pairsOf 1 4 n body, 1 ≤ e.x ∧ e.x ≤ 11) ∧ ((pairsOf 1 4 n body).map Point.x).Nodup) →
        RefusedWith (.setLimits n body) s tag .badValue) ∧
      ((∀ e ∈ pairsOf 1 4 n body, 1 ≤ e.x ∧ e.x ≤ 11) → ((pairsOf 1 4 n body).map Point.x).Nodup →
        ∃ t, exec (.setLimits n body) s = .next (State.replied tag .ok
            ((pairsOf 1 4 n body).flatMap fun e => bytesOf 1 e.x ++ bytesOf 4 (settingUsed e.x e.y)) t) ∧
          (∀ e ∈ pairsOf 1 4 n body, t.setting e.x = settingUsed e.x e.y) ∧
          (∀ k, 1 ≤ k → k ≤ 11 → k ∉ (pairsOf 1 4 n body).map Point.x → t.setting k = s.setting k) ∧
          (4 ∉ (pairsOf 1 4 n body).map Point.x → t.tanks = s.tanks ∧ t.notices = s.notices) ∧
          (4 ∈ (pairsOf 1 4 n body).map Point.x →
            (∀ i : Fin 32, t.tanks[i] = (s.tanks[i]).map fun u =>
              { u with service := u.service.map fun v => { v with level := { v.level with
                  imminent := formImminent v.level.timeToSpill t.alloc.imminentThreshold } } }) ∧
            t.notices = (s.postTanks fun i => match s.serviceAt i with
              | some (_, v) =>
                if v.level.imminent = false ∧ formImminent v.level.timeToSpill t.alloc.imminentThreshold = true
                then [.imminent] else []
              | none => []).notices) ∧
          t = { s with
            tanks := t.tanks, notices := t.notices, windowHours := t.windowHours
            alloc := { s.alloc with
              period := t.alloc.period, guardBand := t.alloc.guardBand, overrideBudget := t.alloc.overrideBudget
              imminentThreshold := t.alloc.imminentThreshold, settleTime := t.alloc.settleTime }
            alerts := { s.alerts with interval := t.alerts.interval }
            guard := { s.guard with
              filterTime := t.guard.filterTime, blankTime := t.guard.blankTime, offTime := t.guard.offTime
              longestHold := t.guard.longestHold } }))

/-- The kinds of the three sorts of entry and their bits (section 10.6). SET_NOTICE_MASK writes the enables whatever is pending; bits
without a kind are disregarded (R186) and read 0 in the reply, which is deduced (log 15). A posting to a tank's, a catchment's or
the allocation record's entry makes its kind pending where the enable is set and has no effect, the detail included, where it is
clear; the detail takes the mark of the latest close; no other entry changes, and ATTN follows (R185). -/
def Obligations.NoticesMaskedAndPosted : Prop :=
  ([TankPost.stale, .levelLost, .stall, .stallCleared, .aboveTable, .imminent, .spillOpen].map TankPost.bit =
      [0, 1, 2, 3, 4, 5, 6] ∧ (∀ m, (TankPost.spillClosed m).bit = 7) ∧
    [CatchmentPost.raised, .lowered, .floorExpired].map CatchmentPost.bit = [0, 1, 2] ∧
    [AllocationPost.trip, .tripCleared, .bankChanged, .budgetShed, .budgetOverrun, .holdEnded, .holdOverridden].map
      AllocationPost.bit = [0, 1, 2, 3, 4, 5, 6]) ∧
  (∀ (s : State) (tag : Byte) (tankKinds catchmentKinds allocationKinds : Nat), tankKinds < 256 →
     s.takes tag (.setNoticeMask tankKinds catchmentKinds allocationKinds) →
     exec (.setNoticeMask tankKinds catchmentKinds allocationKinds) s = .next (State.replied tag .ok
       (bytesOf 1 tankKinds ++ bytesOf 1 (catchmentKinds % 8) ++ bytesOf 1 (allocationKinds % 128))
       { s with notices := { s.notices with
           tankMask := BitVec.ofNat 8 tankKinds, catchmentMask := BitVec.ofNat 3 catchmentKinds
           allocationMask := BitVec.ofNat 7 allocationKinds } })) ∧
  ∀ s : State,
    (∀ posts : Fin 32 → List TankPost, ∃ u : State, u = s.postTanks posts ∧
      u = { s with notices := { s.notices with tanks := u.notices.tanks, attn := u.notices.attn } } ∧
      AttnFollows u.notices ∧ ∀ i : Fin 32,
        (∀ b, u.notices.tanks[i].kinds.getLsbD b =
          (s.notices.tanks[i].kinds.getLsbD b || ((posts i).any (fun p => p.bit == b) && s.notices.tankMask.getLsbD b))) ∧
        (s.notices.tankMask.getLsbD 7 = false ∨ (∀ m, TankPost.spillClosed m ∉ posts i) →
          u.notices.tanks[i].detail = s.notices.tanks[i].detail) ∧
        (s.notices.tankMask.getLsbD 7 = true → ∀ before m after, posts i = before ++ .spillClosed m :: after →
          (∀ n, TankPost.spillClosed n ∉ after) → u.notices.tanks[i].detail = some m)) ∧
    (∀ (i : Fin 32) (posts : List TankPost), s.postTank i posts = s.postTanks fun j => if j = i then posts else []) ∧
    (∀ posts : Fin 8 → List CatchmentPost, ∃ u : State, u = s.postCatchments posts ∧
      u = { s with notices := { s.notices with catchments := u.notices.catchments, attn := u.notices.attn } } ∧
      AttnFollows u.notices ∧ ∀ (k : Fin 8) (b : Nat), u.notices.catchments[k].getLsbD b =
        (s.notices.catchments[k].getLsbD b ||
          ((posts k).any (fun p => p.bit == b) && s.notices.catchmentMask.getLsbD b))) ∧
    ∀ p : AllocationPost, ∃ u : State, u = s.postAllocation p ∧
      u = { s with notices := { s.notices with allocation := u.notices.allocation, attn := u.notices.attn } } ∧
      (∀ b, u.notices.allocation.getLsbD b =
        (s.notices.allocation.getLsbD b || (decide (b = p.bit) && s.notices.allocationMask.getLsbD b))) ∧
      AttnFollows u.notices

/-- READ_NOTICES returns every entry with a pending kind, allocation record first, then tanks and catchments in index order, removes
exactly what it returned, and ATTN falls (R187). Three bytes that no rule states are free (log 11), and a bit that has no kind is
0, which is the model's choice (log 14). -/
def Obligations.ReadNoticesCollects : Prop :=
  ∀ (s : State) (tag : Byte), s.takes tag .readNotices →
    ∃ (a b c : Byte) (entries : List (List Byte)),
      entries =
        (if s.notices.allocation = 0 then [] else [[0, a, s.notices.allocation.setWidth 8, b]]) ++
        ((List.finRange 32).filterMap fun i : Fin 32 => if s.notices.tanks[i].kinds = 0 then none else
          some [1, BitVec.ofNat 8 i, s.notices.tanks[i].kinds,
            match s.notices.tanks[i].detail with
              | some .ended => 1
              | some .lost => 2
              | some .cut => 3
              | none => 0]) ++
        ((List.finRange 8).filterMap fun k : Fin 8 => if s.notices.catchments[k] = 0 then none else
          some [2, BitVec.ofNat 8 k, s.notices.catchments[k].setWidth 8, c]) ∧
      exec .readNotices s = .next (State.replied tag .ok (bytesOf 1 entries.length ++ entries.flatten)
        { s with notices := { s.notices with
            allocation := 0, catchments := Vector.replicate 8 0, attn := false
            tanks := s.notices.tanks.map fun e => if e.kinds = 0 then e else { kinds := 0, detail := none } } })

/-! ### The Tank Table -/

/-- DEFINE_TANK: its checks in order, the fresh record of an UNDEFINED tank and the redefinition of an OFFLINE one (R2 to R4). -/
def Obligations.TankDefined : Prop :=
  ∀ (s : State) (tag : Byte) (tank : Nat) (f : TankFields), s.takes tag (.defineTank tank f) →
    (31 < tank ∨ 7 < f.catchment ∨ 3 < f.zone → RefusedWith (.defineTank tank f) s tag .badIndex) ∧
    ∀ (i : Fin 32) (c : Fin 8) (z : Fin 4), i.val = tank → c.val = f.catchment → z.val = f.zone →
      (s.inService i = true → RefusedWith (.defineTank tank f) s tag .notOffline) ∧
      (s.inService i = false → ¬FieldsInRange f → RefusedWith (.defineTank tank f) s tag .badValue) ∧
      (s.inService i = false → FieldsInRange f → s.catchments[c] = none →
        RefusedWith (.defineTank tank f) s tag .notDefined) ∧
      (s.inService i = false → FieldsInRange f → s.catchments[c].isSome → ∃ d : TankDef, d.Holds c z f ∧
        (s.tanks[i] = none → exec (.defineTank tank f) s = .next (State.replied tag .ok []
          { s with
            tanks := s.tanks.set i (some
              { defn := d, stage := none, rating := none, inForce := { mode := .auto, value := 0 }
                pendingMode := { mode := .auto, value := 0 }, softInhibit := false
                inhibited := formInhibit d.combine s.pins.zinh[z] false, service := none
                book := { counters := { begun := 0, counted := 0, seconds := 0, litres := 0, restricted := 0 }
                          window := none, lastClose := none } })
            orders := s.orders.set i { s.orders[i] with active := 0, next := 0, mark := .noMark } })) ∧
        (∀ t, s.tanks[i] = some t → exec (.defineTank tank f) s = .next (State.replied tag .ok []
          { s with tanks := s.tanks.set i (some { t with
              defn := d
              stage := t.stage.map fun st =>
                { points := st.points, vDry := interpolate st.points d.dryLevel, vCrest := interpolate st.points d.crestLevel }
              inForce := { t.inForce with value := min t.inForce.value d.rMax }
              pendingMode := { t.pendingMode with value := min t.pendingMode.value d.rMax }
              inhibited := formInhibit d.combine s.pins.zinh[z] t.softInhibit }) })))

/-- LOAD_STAGE_TABLE and LOAD_RATING_TABLE: their checks in order, the table loaded, and the two volumes derived from a stage-storage
table (R5 to R7). -/
def Obligations.TablesLoaded : Prop :=
  (∀ (s : State) (tag : Byte) (tank n : Nat) (body : List Byte), s.takes tag (.loadStageTable tank n body) →
     (31 < tank → RefusedWith (.loadStageTable tank n body) s tag .badIndex) ∧
     ∀ i : Fin 32, i.val = tank →
       (s.tanks[i] = none → RefusedWith (.loadStageTable tank n body) s tag .notDefined) ∧
       ∀ t, s.tanks[i] = some t →
         (t.service.isSome → RefusedWith (.loadStageTable tank n body) s tag .notOffline) ∧
         (t.service = none →
           (body.length ≠ 6 * n → RefusedWith (.loadStageTable tank n body) s tag .badLength) ∧
           (body.length = 6 * n → ¬StageShape n (pairsOf 2 4 n body) →
             RefusedWith (.loadStageTable tank n body) s tag .badTable) ∧
           (body.length = 6 * n → StageShape n (pairsOf 2 4 n body) →
             exec (.loadStageTable tank n body) s = .next (State.replied tag .ok
               (bytesOf 4 (interpolate (pairsOf 2 4 n body) t.defn.dryLevel) ++
                 bytesOf 4 (interpolate (pairsOf 2 4 n body) t.defn.crestLevel))
               { s with tanks := s.tanks.set i (some { t with
                 stage := some
                   { points := pairsOf 2 4 n body, vDry := interpolate (pairsOf 2 4 n body) t.defn.dryLevel,
                     vCrest := interpolate (pairsOf 2 4 n body) t.defn.crestLevel } }) })))) ∧
  (∀ (s : State) (tag : Byte) (tank n : Nat) (body : List Byte), s.takes tag (.loadRatingTable tank n body) →
     (31 < tank → RefusedWith (.loadRatingTable tank n body) s tag .badIndex) ∧
     ∀ i : Fin 32, i.val = tank →
       (s.tanks[i] = none → RefusedWith (.loadRatingTable tank n body) s tag .notDefined) ∧
       ∀ t, s.tanks[i] = some t →
         (t.service.isSome → RefusedWith (.loadRatingTable tank n body) s tag .notOffline) ∧
         (t.service = none →
           (body.length ≠ 4 * n → RefusedWith (.loadRatingTable tank n body) s tag .badLength) ∧
           (body.length = 4 * n → ¬RatingShape n (pairsOf 2 2 n body) →
             RefusedWith (.loadRatingTable tank n body) s tag .badTable) ∧
           (body.length = 4 * n → RatingShape n (pairsOf 2 2 n body) →
             exec (.loadRatingTable tank n body) s = .next (State.replied tag .ok []
               { s with tanks := s.tanks.set i (some { t with rating := some (pairsOf 2 2 n body) }) }))))

/-- PLACE_IN_SERVICE and RETIRE_TANK: their checks in order and their effects (R8, R10). -/
def Obligations.TankPlacedAndRetired : Prop :=
  (∀ (s : State) (tag : Byte) (tank : Nat), s.takes tag (.placeInService tank) →
    (31 < tank → RefusedWith (.placeInService tank) s tag .badIndex) ∧
    ∀ i : Fin 32, i.val = tank →
      (s.tanks[i] = none → RefusedWith (.placeInService tank) s tag .notDefined) ∧
      ∀ t, s.tanks[i] = some t →
        (t.service.isSome → RefusedWith (.placeInService tank) s tag .notOffline) ∧
        (t.service = none → t.stage = none ∨ t.rating = none → RefusedWith (.placeInService tank) s tag .notDefined) ∧
        (t.service = none → t.stage.isSome → t.rating.isSome →
          exec (.placeInService tank) s = .next (State.replied tag .ok []
            { s with tanks := s.tanks.set i (some { t with
              service := some
                { op := .awaitLevel,
                  level := { lastLevel := none, lastReport := none, clamped := false, aboveTable := false, stale := false,
                             volume := none, previous := none, netRate := none, timeToSpill := .absent, imminent := false,
                             staleTimer := none, expiries := 0 },
                  supervisor := { stallCounter := 0, goodCounter := 0, snapshot := none, reportMark := false, stall := false,
                                  levelLost := false },
                  spilling := .quiet } }) }))) ∧
  ∀ (s : State) (tag : Byte) (tank : Nat), s.takes tag (.retireTank tank) →
    (31 < tank → RefusedWith (.retireTank tank) s tag .badIndex) ∧
    ∀ i : Fin 32, i.val = tank →
      (s.tanks[i] = none → RefusedWith (.retireTank tank) s tag .notDefined) ∧
      ∀ t, s.tanks[i] = some t →
        (t.service.isSome → RefusedWith (.retireTank tank) s tag .notOffline) ∧
        (t.service = none → ∃ u,
          exec (.retireTank tank) s = .next (State.replied tag .ok
            (bytesOf 2 t.book.counters.begun ++ bytesOf 2 t.book.counters.counted ++ bytesOf 4 t.book.counters.seconds ++
              bytesOf 6 t.book.counters.litres ++ bytesOf 2 t.book.counters.restricted) u) ∧
          u = { s with
            tanks := s.tanks.set i none
            orders := s.orders.set i { s.orders[i] with
              active := 0, next := 0, activeChanged := s.orders[i].activeChanged || s.orders[i].active != 0 }
            notices := { s.notices with
              tanks := s.notices.tanks.set i { kinds := 0, detail := none }, attn := u.notices.attn } } ∧
          (u.notices.attn = true ↔ s.notices.allocation ≠ 0 ∨ (∃ j : Fin 32, j ≠ i ∧ s.notices.tanks[j].kinds ≠ 0) ∨
            ∃ k : Fin 8, s.notices.catchments[k] ≠ 0))

/-- TAKE_OFFLINE: its checks in order; both orders 0 with no mark, the tank out of the run order list, an open event closed CUT at the
last report time, and everything that only an IN_SERVICE tank has forgotten (R9, R171). -/
def Obligations.TankTakenOffline : Prop :=
  ∀ (s : State) (tag : Byte) (tank : Nat), s.takes tag (.takeOffline tank) →
    (31 < tank → RefusedWith (.takeOffline tank) s tag .badIndex) ∧
    ∀ i : Fin 32, i.val = tank →
      (s.tanks[i] = none → RefusedWith (.takeOffline tank) s tag .notDefined) ∧
      ∀ t, s.tanks[i] = some t →
        (t.service = none → RefusedWith (.takeOffline tank) s tag .notInService) ∧
        ∀ v, t.service = some v → ∃ (book : SpillBook) (posts : List TankPost),
          exec (.takeOffline tank) s = .next (State.replied tag .ok []
            { s with
              tanks := s.tanks.set i (some { t with book := book, service := none })
              orders := s.orders.set i
                { active := 0, next := 0, mark := .noMark
                  activeChanged := s.orders[i].activeChanged || s.orders[i].active != 0 }
              alloc := { s.alloc with runOrder := s.alloc.runOrder.filter fun j => j ≠ i }
              notices := (s.postTank i posts).notices }) ∧
          ((∀ e, v.spilling ≠ .event e) → book = t.book ∧ posts = []) ∧
          ∀ e r, v.spilling = .event e → v.level.lastReport = some r →
            book = t.book.close .cut r e ∧ posts = [.spillClosed .cut]

/-- SET_MODE writes the pending pair and nothing else (R11). Of an invalid mode for an UNDEFINED tank, BAD_VALUE is the model's choice
(log 25). -/
def Obligations.PendingModeWritten : Prop :=
  ∀ (s : State) (tag : Byte) (tank mode value : Nat), s.takes tag (.setMode tank mode value) →
    (31 < tank → RefusedWith (.setMode tank mode value) s tag .badIndex) ∧
    ∀ i : Fin 32, i.val = tank →
      (1 < mode → RefusedWith (.setMode tank mode value) s tag .badValue) ∧
      (mode ≤ 1 → s.tanks[i] = none → RefusedWith (.setMode tank mode value) s tag .notDefined) ∧
      ∀ t, s.tanks[i] = some t →
        (mode = 1 → exec (.setMode tank mode value) s = .next (State.replied tag .ok
          (bytesOf 2 (if t.defn.rMax < value then t.defn.rMax else value))
          { s with tanks := s.tanks.set i (some { t with pendingMode :=
              { mode := .manual, value := if t.defn.rMax < value then t.defn.rMax else value } }) })) ∧
        (mode = 0 → exec (.setMode tank mode value) s = .next (State.replied tag .ok (bytesOf 2 0)
          { s with tanks := s.tanks.set i (some { t with pendingMode := { mode := .auto, value := 0 } }) }))

/-- SET_INHIBIT and a change of a ZINH line form the effective inhibit anew, and where it rises on an IN_SERVICE tank the tank is
withdrawn (R13 to R15). Of an invalid flag for an UNDEFINED tank, BAD_VALUE is the model's choice (log 25). -/
def Obligations.InhibitFormedAnew : Prop :=
  (∀ line soft : Bool, formInhibit .or line soft = (line || soft) ∧ formInhibit .and line soft = (line && soft)) ∧
  (∀ (s : State) (tag : Byte) (tank flag : Nat), s.takes tag (.setInhibit tank flag) →
    (31 < tank → RefusedWith (.setInhibit tank flag) s tag .badIndex) ∧
    ∀ i : Fin 32, i.val = tank →
      (1 < flag → RefusedWith (.setInhibit tank flag) s tag .badValue) ∧
      (flag ≤ 1 → s.tanks[i] = none → RefusedWith (.setInhibit tank flag) s tag .notDefined) ∧
      ∀ t, flag ≤ 1 → s.tanks[i] = some t → ∃ (inhibited : Bool) (u : State),
        inhibited = formInhibit t.defn.combine s.pins.zinh[t.defn.zone] (decide (flag = 1)) ∧
        u = s.setTank i (some { t with softInhibit := decide (flag = 1), inhibited := inhibited }) ∧
        exec (.setInhibit tank flag) s = .next (State.replied tag .ok [if inhibited then 1 else 0]
          (if inhibited = true ∧ t.inhibited = false ∧ t.service.isSome then u.withdraw fun j => decide (j = i) else u))) ∧
  ∀ (s : State) (z : Fin 4) (level : Bool), s.resetAsserted = false → s.pins.zinh[z] ≠ level → ∃ u : State,
    u = { s with
      pins := { s.pins with zinh := s.pins.zinh.set z level }
      tanks := Vector.ofFn fun j => (s.tanks[j]).map fun t =>
        if t.defn.zone = z then { t with inhibited := formInhibit t.defn.combine level t.softInhibit } else t } ∧
    exec (.zinhChange z level) s = .next (u.withdraw fun j => match s.tanks[j] with
      | some t => decide (t.defn.zone = z) && t.service.isSome && !t.inhibited &&
          formInhibit t.defn.combine level t.softInhibit
      | none => false)

/-! ### Gauges -/

/-- DEFINE_GAUGE and RETIRE_GAUGE: their checks in order and their effects (R63 to R65). -/
def Obligations.GaugeDefinedAndRetired : Prop :=
  (∀ (s : State) (tag : Byte) (gauge d debounce gap : Nat), s.takes tag (.defineGauge gauge d debounce gap) →
    (11 < gauge → RefusedWith (.defineGauge gauge d debounce gap) s tag .badIndex) ∧
    ∀ k : Fin 12, k.val = gauge →
      (¬(d ∈ Set.Icc 1 100 ∧ debounce ∈ Set.Icc 1 50 ∧ gap ∈ Set.Icc 600 86400) →
        RefusedWith (.defineGauge gauge d debounce gap) s tag .badValue) ∧
      (d ∈ Set.Icc 1 100 → debounce ∈ Set.Icc 1 50 → gap ∈ Set.Icc 600 86400 →
        (s.gauges[k] = none → exec (.defineGauge gauge d debounce gap) s = .next (State.replied tag .ok []
          { s with gauges := s.gauges.set k (some
              { depthPerTip := d, debounce := debounce, dryGap := gap, storm := .dry, stormDepth := 0, tips := 0
                lastTip := none, interval := none, tipDepth := none, dryTimer := none }) })) ∧
        ∀ g, s.gauges[k] = some g → exec (.defineGauge gauge d debounce gap) s = .next (State.replied tag .ok []
          { s with gauges := s.gauges.set k (some { g with depthPerTip := d, debounce := debounce, dryGap := gap }) }))) ∧
  ∀ (s : State) (tag : Byte) (gauge : Nat), s.takes tag (.retireGauge gauge) →
    (11 < gauge → RefusedWith (.retireGauge gauge) s tag .badIndex) ∧
    ∀ k : Fin 12, k.val = gauge →
      (s.gauges[k] = none → RefusedWith (.retireGauge gauge) s tag .notDefined) ∧
      (s.gauges[k].isSome → (∃ j : Fin 8, ∃ c ∈ s.catchments[j], k ∈ c.defn.gauges) →
        RefusedWith (.retireGauge gauge) s tag .inUse) ∧
      (s.gauges[k].isSome → (∀ j : Fin 8, ∀ c ∈ s.catchments[j], k ∉ c.defn.gauges) →
        exec (.retireGauge gauge) s = .next (State.replied tag .ok [] { s with gauges := s.gauges.set k none }))

/-- An edge on a TIP line: disregarded for an undefined gauge, refused within the debounce, else a storm begun or continued; and the
dry-gap expiry, which ends the storm and keeps the last tip time (R66 to R70). The intensity of a gauge (R72), and its limits: at
most 65535, and not rising between tips (R73). -/
def Obligations.TipsMakeStorms : Prop :=
  (∀ (s : State) (k : Fin 12), s.resetAsserted = false →
     (s.gauges[k] = none → exec (.tipEdge k) s = .next s) ∧
     ∀ g, s.gauges[k] = some g →
       (∀ last, g.lastTip = some last → s.ds - last < g.debounce → exec (.tipEdge k) s = .next s) ∧
       ((∀ last, g.lastTip = some last → g.debounce ≤ s.ds - last) →
         (g.storm = .dry → exec (.tipEdge k) s = .next { s with gauges := s.gauges.set k (some { g with
           storm := .wet, stormDepth := g.depthPerTip, tips := 1, tipDepth := some g.depthPerTip, interval := none
           lastTip := some s.ds, dryTimer := some (s.ds + 10 * g.dryGap) }) }) ∧
         (∀ last, g.storm = .wet → g.lastTip = some last → exec (.tipEdge k) s = .next { s with gauges := s.gauges.set k (some
           { g with
             interval := some (min 65535 (s.ds - last)), stormDepth := min 4294967295 (g.stormDepth + g.depthPerTip)
             tips := min 65535 (g.tips + 1), tipDepth := some g.depthPerTip, lastTip := some s.ds
             dryTimer := some (s.ds + 10 * g.dryGap) }) })) ∧
       ∀ e, g.dryTimer = some e → e ≤ s.ds → exec (.dryGapExpiry k) s = .next { s with gauges := s.gauges.set k (some
         { g with storm := .dry, stormDepth := 0, tips := 0, interval := none, tipDepth := none, dryTimer := none }) }) ∧
  ∀ g : Gauge,
    (∀ ds, g.storm = .dry → g.intensity ds = 0) ∧
    (∀ ds, g.interval = none → g.intensity ds = 0) ∧
    (∀ ds i u last, g.storm = .wet → g.interval = some i → g.tipDepth = some u → g.lastTip = some last →
      g.intensity ds = min 65535 (3600 * u / max i (ds - last))) ∧
    (∀ ds, g.intensity ds ≤ 65535) ∧
    ∀ a b, g.interval ≠ some 0 → a ≤ b → g.intensity b ≤ g.intensity a

/-! ### Catchments and alerts -/

/-- DEFINE_CATCHMENT and RETIRE_CATCHMENT: their checks in order and their effects (R79 to R81). -/
def Obligations.CatchmentDefinedAndRetired : Prop :=
  (∀ (s : State) (tag : Byte) (catchment n : Nat) (body : List Byte), s.takes tag (.defineCatchment catchment n body) →
    (7 < catchment → RefusedWith (.defineCatchment catchment n body) s tag .badIndex) ∧
    ∀ k : Fin 8, k.val = catchment →
      (n = 0 ∨ 4 < n → RefusedWith (.defineCatchment catchment n body) s tag .badValue) ∧
      (1 ≤ n → n ≤ 4 → body.length ≠ n + 22 → RefusedWith (.defineCatchment catchment n body) s tag .badLength) ∧
      ∀ (gauges : List Nat) (iWatch iWarning iSevere dWatch dWarning dSevere hysteresis holdDown : Nat),
        1 ≤ n → n ≤ 4 → gauges.length = n → (∀ g ∈ gauges, g < 256) →
        (∀ m ∈ [iWatch, iWarning, iSevere, hysteresis, holdDown], m < 2 ^ 16) →
        (∀ m ∈ [dWatch, dWarning, dSevere], m < 2 ^ 32) →
        body = gauges.map (BitVec.ofNat 8) ++ bytesOf 2 iWatch ++ bytesOf 2 iWarning ++ bytesOf 2 iSevere ++
          bytesOf 4 dWatch ++ bytesOf 4 dWarning ++ bytesOf 4 dSevere ++ bytesOf 2 hysteresis ++ bytesOf 2 holdDown →
        ((∃ g ∈ gauges, 11 < g) → RefusedWith (.defineCatchment catchment n body) s tag .badIndex) ∧
        ∀ list : List (Fin 12), list.map Fin.val = gauges →
          (¬(gauges.Nodup ∧ 1 ≤ iWatch ∧ iWatch ≤ iWarning ∧ iWarning ≤ iSevere ∧ hysteresis < iWatch ∧
              holdDown ∈ Set.Icc 60 7200) → RefusedWith (.defineCatchment catchment n body) s tag .badValue) ∧
          (gauges.Nodup → 1 ≤ iWatch → iWatch ≤ iWarning → iWarning ≤ iSevere → hysteresis < iWatch →
            holdDown ∈ Set.Icc 60 7200 →
            ((∃ g ∈ list, s.gauges[g] = none) → RefusedWith (.defineCatchment catchment n body) s tag .notDefined) ∧
            ((∀ g ∈ list, s.gauges[g].isSome) → ∃ d : CatchmentDef,
              d = { gauges := list, iWatch := iWatch, iWarning := iWarning, iSevere := iSevere, dWatch := dWatch
                    dWarning := dWarning, dSevere := dSevere, hysteresis := hysteresis, holdDown := holdDown } ∧
              (s.catchments[k] = none → exec (.defineCatchment catchment n body) s = .next (State.replied tag .ok []
                { s with catchments := s.catchments.set k (some
                    { defn := d, lastIntensity := 0, lastDepth := 0, gaugeLevel := .noAlert, holdStart := none, floor := none
                      effective := .noAlert, acknowledged := false, raised := none, peak := 0 }) })) ∧
              ∀ c, s.catchments[k] = some c → exec (.defineCatchment catchment n body) s = .next (State.replied tag .ok []
                { s with catchments := s.catchments.set k (some { c with defn := d }) })))) ∧
  ∀ (s : State) (tag : Byte) (catchment : Nat), s.takes tag (.retireCatchment catchment) →
    (7 < catchment → RefusedWith (.retireCatchment catchment) s tag .badIndex) ∧
    ∀ k : Fin 8, k.val = catchment →
      (s.catchments[k] = none → RefusedWith (.retireCatchment catchment) s tag .notDefined) ∧
      (s.catchments[k].isSome → (∃ i : Fin 32, ∃ t ∈ s.tanks[i], t.defn.catchment = k) →
        RefusedWith (.retireCatchment catchment) s tag .inUse) ∧
      (s.catchments[k].isSome → (∀ i : Fin 32, ∀ t ∈ s.tanks[i], t.defn.catchment ≠ k) → ∃ u,
        exec (.retireCatchment catchment) s = .next (State.replied tag .ok [] u) ∧ LinesFollow u ∧
        u = { s with
          catchments := s.catchments.set k none
          alerts := { s.alerts with rainAlert := u.alerts.rainAlert }
          notices := { s.notices with catchments := s.notices.catchments.set k 0, attn := u.notices.attn } })

/-- The raw level is the highest level that is due (R84). The gauge-derived level rises to it at once and falls one step after a
hold-down, and the effective level is formed after it (R85, R86, R89). -/
def Obligations.GaugeLevelRisesAndFalls : Prop :=
  (∀ (d : CatchmentDef) (intensity depth : Nat),
     (d.iSevere ≤ intensity ∨ d.dSevere ≠ 0 ∧ d.dSevere ≤ depth → d.rawLevel intensity depth = .severe) ∧
     (¬(d.iSevere ≤ intensity ∨ d.dSevere ≠ 0 ∧ d.dSevere ≤ depth) →
       (d.iWarning ≤ intensity ∨ d.dWarning ≠ 0 ∧ d.dWarning ≤ depth → d.rawLevel intensity depth = .warning) ∧
       (¬(d.iWarning ≤ intensity ∨ d.dWarning ≠ 0 ∧ d.dWarning ≤ depth) →
         (d.iWatch ≤ intensity ∨ d.dWatch ≠ 0 ∧ d.dWatch ≤ depth → d.rawLevel intensity depth = .watch) ∧
         (¬(d.iWatch ≤ intensity ∨ d.dWatch ≠ 0 ∧ d.dWatch ≤ depth) → d.rawLevel intensity depth = .noAlert)))) ∧
  ∀ (c : Catchment) (now intensity depth : Nat), ∃ n : Catchment, n = (c.evaluate now intensity depth).catchment ∧
    n.effective.code = max n.gaugeLevel.code ((n.floor.map fun f => f.level.code).getD 0) ∧
    (c.gaugeLevel.code < (c.defn.rawLevel intensity depth).code →
      n.gaugeLevel = c.defn.rawLevel intensity depth ∧ n.holdStart = none) ∧
    ((c.defn.rawLevel intensity depth).code ≤ c.gaugeLevel.code →
      (c.gaugeLevel = .noAlert → n.gaugeLevel = .noAlert ∧ n.holdStart = none) ∧
      ∀ iG dG, (c.gaugeLevel, iG, dG) ∈ [(AlertLevel.watch, c.defn.iWatch, c.defn.dWatch),
          (.warning, c.defn.iWarning, c.defn.dWarning), (.severe, c.defn.iSevere, c.defn.dSevere)] →
        (¬(intensity < iG - c.defn.hysteresis ∧ (dG = 0 ∨ depth < dG)) →
          n.gaugeLevel = c.gaugeLevel ∧ n.holdStart = none) ∧
        (intensity < iG - c.defn.hysteresis → dG = 0 ∨ depth < dG →
          (c.holdStart = none → n.gaugeLevel = c.gaugeLevel ∧ n.holdStart = some now) ∧
          ∀ start, c.holdStart = some start →
            (start + c.defn.holdDown ≤ now → n.gaugeLevel.code + 1 = c.gaugeLevel.code ∧
              n.holdStart = if n.gaugeLevel = .noAlert then none else some now) ∧
            (now < start + c.defn.holdDown → n.gaugeLevel = c.gaugeLevel ∧ n.holdStart = some start)))

/-- The evaluation expiry evaluates every defined catchment on the largest intensity and storm depth of its gauges, with what a change
of the effective level does, and restarts the timer with E (R82, R83, R90 to R92). -/
def Obligations.EvaluationOfCatchments : Prop :=
  (∀ (c : Catchment) (now intensity depth : Nat), ∃ r : CatchmentStep, r = c.evaluate now intensity depth ∧
    r.catchment.defn = c.defn ∧ r.catchment.floor = c.floor ∧ r.catchment.lastIntensity = intensity ∧
    r.catchment.lastDepth = depth ∧ EffectiveChange now c r.catchment r.posts ∧
    (r.catchment.effective.code ≤ c.effective.code →
      r.catchment.peak = if r.catchment.effective = .noAlert then c.peak else max c.peak intensity)) ∧
  ∀ (s : State) (e : Nat), s.resetAsserted = false → s.alerts.evalTimer = some e → e ≤ s.ds →
    ∃ (t : State) (r : Fin 8 → Option CatchmentStep), exec .evaluationExpiry s = .next t ∧
      (∀ k : Fin 8, r k = (s.catchments[k]).map fun c => c.evaluate (s.ds / 10)
        ((c.defn.gauges.filterMap fun g => (s.gauges[g]).map fun u => u.intensity s.ds).foldl max 0)
        ((c.defn.gauges.filterMap fun g => (s.gauges[g]).map fun u => u.stormDepth).foldl max 0)) ∧
      (∀ k : Fin 8, t.catchments[k] = (r k).map CatchmentStep.catchment) ∧
      t.notices = (s.postCatchments fun k => ((r k).map CatchmentStep.posts).getD []).notices ∧
      t.alerts = { evalTimer := some (s.ds + 10 * s.alerts.interval), interval := s.alerts.interval
                   rainAlert := t.alerts.rainAlert } ∧
      (t.alerts.rainAlert = true ↔ ∃ k : Fin 8, ∃ c ∈ t.catchments[k], c.effective = .warning ∨ c.effective = .severe) ∧
      t = { s with catchments := t.catchments, notices := t.notices, alerts := t.alerts }

/-- SET_FORECAST sets, replaces or removes the floor, the floor's expiry removes it, and the effective level is formed at once (R87 to
R91); ACK_ALERT: its checks in order, and the acknowledged flag (R93). RAIN_ALERT follows the levels (R94). -/
def Obligations.FloorsExpireAndAlertsAreAcknowledged : Prop :=
  (∀ s : State, ∃ lit : Bool, s.formRainAlert = { s with alerts := { s.alerts with rainAlert := lit } } ∧
    (lit = true ↔ ∃ k : Fin 8, ∃ c ∈ s.catchments[k], c.effective = .warning ∨ c.effective = .severe)) ∧
  ((∀ (s : State) (tag : Byte) (catchment level duration : Nat), s.takes tag (.setForecast catchment level duration) →
     (7 < catchment → RefusedWith (.setForecast catchment level duration) s tag .badIndex) ∧
     ∀ k : Fin 8, k.val = catchment →
       (3 < level ∨ level ≠ 0 ∧ duration = 0 → RefusedWith (.setForecast catchment level duration) s tag .badValue) ∧
       (level ≤ 3 → level = 0 ∨ duration ≠ 0 → s.catchments[k] = none →
         RefusedWith (.setForecast catchment level duration) s tag .notDefined) ∧
       ∀ (l : AlertLevel) (c : Catchment), l.code = level → level = 0 ∨ duration ≠ 0 → s.catchments[k] = some c →
         ∃ (n : Catchment) (posts : List CatchmentPost),
           exec (.setForecast catchment level duration) s = .next (State.replied tag .ok
             (bytesOf 1 n.effective.code ++ bytesOf 1 level ++
               (if level = 0 then bytesOf 4 0 ++ bytesOf 4 0
                else bytesOf 4 (s.ds / 10 + min duration 259200) ++ bytesOf 4 (min duration 259200)))
             ((s.setCatchment k (some n)).postCatchments fun j => if j = k then posts else []).formRainAlert) ∧
           n = { c with floor := n.floor, effective := n.effective, acknowledged := n.acknowledged, raised := n.raised
                        peak := n.peak } ∧
           n.floor = (if level = 0 then none else some { level := l, expiry := s.ds / 10 + min duration 259200
                                                         timer := s.ds + 10 * min duration 259200 }) ∧
           n.effective.code = max c.gaugeLevel.code level ∧ EffectiveChange (s.ds / 10) c n posts ∧
           (n.effective.code ≤ c.effective.code → n.peak = c.peak)) ∧
   ∀ (s : State) (k : Fin 8) (c : Catchment) (f : Floor), s.resetAsserted = false → s.catchments[k] = some c →
     c.floor = some f → f.timer ≤ s.ds → ∃ (n : Catchment) (posts : List CatchmentPost),
       exec (.floorExpiry k) s = .next
         ((s.setCatchment k (some n)).postCatchments fun j => if j = k then .floorExpired :: posts else []).formRainAlert ∧
       n = { c with floor := none, effective := n.effective, acknowledged := n.acknowledged, raised := n.raised
                    peak := n.peak } ∧
       n.effective = c.gaugeLevel ∧ EffectiveChange (s.ds / 10) c n posts ∧
       (n.effective.code ≤ c.effective.code → n.peak = c.peak)) ∧
  (∀ (s : State) (tag : Byte) (catchment : Nat), s.takes tag (.ackAlert catchment) →
     (7 < catchment → RefusedWith (.ackAlert catchment) s tag .badIndex) ∧
     ∀ k : Fin 8, k.val = catchment →
       (s.catchments[k] = none → RefusedWith (.ackAlert catchment) s tag .notDefined) ∧
       ∀ c, s.catchments[k] = some c →
         (c.effective = .noAlert → RefusedWith (.ackAlert catchment) s tag .noAlert) ∧
         (c.effective ≠ .noAlert → exec (.ackAlert catchment) s = .next (State.replied tag .ok
           (bytesOf 1 c.effective.code)
           { s with catchments := s.catchments.set k (some { c with acknowledged := true }) })))

/-! ### Level reports -/

/-- The interpolation unit (R27). -/
def Obligations.InterpolationFollowsTable : Prop :=
  ∀ points : List Point, (points.Pairwise fun p q => p.x < q.x ∧ p.y ≤ q.y) → ∀ (hpos : 0 < points.length) (x : Nat),
    (x ≤ points[0].x → interpolate points x = points[0].y) ∧
    (points[points.length - 1].x ≤ x → interpolate points x = points[points.length - 1].y) ∧
    (∀ (i : Nat) (h : i + 1 < points.length), points[i].x ≤ x → x < points[i + 1].x →
      interpolate points x =
          points[i].y + (points[i + 1].y - points[i].y) * (x - points[i].x) / (points[i + 1].x - points[i].x) ∧
        points[i].y ≤ interpolate points x ∧ interpolate points x ≤ points[i + 1].y) ∧
    points[0].y ≤ interpolate points x ∧ interpolate points x ≤ points[points.length - 1].y ∧
    ∀ x', x ≤ x' → interpolate points x ≤ interpolate points x'

/-- The sample of the net rate (R32): litres over the seconds between the two reports, toward zero, within ±65535; and its smoothing
(R33). -/
def Obligations.NetRateSmoothed : Prop :=
  (∀ volume previous report before : Nat, before < report →
    (∀ q : Nat, previous ≤ volume → q = (volume - previous) * 100 / (report - before) →
      rateSample volume previous (report - before) = if 65535 < q then 65535 else (q : Int)) ∧
    ∀ q : Nat, volume ≤ previous → q = (previous - volume) * 100 / (report - before) →
      rateSample volume previous (report - before) = if 65535 < q then -65535 else -(q : Int)) ∧
  (∀ sample : Int, smoothRate none sample = sample) ∧
  ∀ e sample : Int,
    smoothRate (some e) sample = e + (sample - e).tdiv 4 ∧
    min e sample ≤ smoothRate (some e) sample ∧ smoothRate (some e) sample ≤ max e sample ∧
    (-65535 ≤ e → e ≤ 65535 → -65535 ≤ sample → sample ≤ 65535 →
      -65535 ≤ smoothRate (some e) sample ∧ smoothRate (some e) sample ≤ 65535) ∧
    ((sample - e).natAbs ≤ 3 → smoothRate (some e) sample = e)

/-- REPORT_LEVEL: its checks in order, and everything an accepted report leaves of the tank; no other tank, order or record changes
(R22 to R26, R29 to R36, R42). What it reads: whether the level lies above the last point of the table (R28), whether a restriction
is in force (R155, R163), and the effective level of a defined catchment. -/
def Obligations.ReportTaken : Prop :=
  (∀ (points : List Point) (hpos : 0 < points.length) (x : Nat),
    aboveLast points x = true ↔ points[points.length - 1].x < x) ∧
  (∀ g : Guard, g.restricts = true ↔
    (∃ e, g.trip = .tripped e) ∨ (∃ a b c d, g.hold = .held a b c d) ∨ ∃ a b, g.hold = .overridden a b) ∧
  (∀ (s : State) (k : Fin 8) (c : Catchment), s.catchments[k] = some c → s.effectiveLevel k = c.effective) ∧
  ∀ (s : State) (tag : Byte) (tank level age : Nat), s.takes tag (.reportLevel tank level age) →
    (31 < tank → RefusedWith (.reportLevel tank level age) s tag .badIndex) ∧
    ∀ i : Fin 32, i.val = tank →
      (s.inService i = false → RefusedWith (.reportLevel tank level age) s tag .notInService) ∧
      ∀ t v, s.tanks[i] = some t → t.service = some v →
        (∀ last, v.level.lastReport = some last → s.ds / 10 - min age 3600 ≤ last →
          RefusedWith (.reportLevel tank level age) s tag .oldReport) ∧
        ((∀ last, v.level.lastReport = some last → last < s.ds / 10 - min age 3600) →
          ∃ (w : Service) (spill : SpillStep) (volume report used : Nat),
            used = min level 30000 ∧ report = s.ds / 10 - min age 3600 ∧
            volume = interpolate t.stagePoints used ∧
            spill = spillReport t.defn (t.rating.getD []) s.windowHours s.guard.restricts
              (s.effectiveLevel t.defn.catchment) used report v.spilling t.book ∧
            exec (.reportLevel tank level age) s = .next (State.replied tag .ok w.level.bytes
              ((s.setTank i (some { t with book := spill.book, service := some w })).postTank i
                ((if w.level.aboveTable ∧ v.level.aboveTable = false then [.aboveTable] else []) ++
                 (if w.level.imminent ∧ v.level.imminent = false then [.imminent] else []) ++ spill.posts))) ∧
            w.spilling = spill.spilling ∧
            w.level.lastLevel = some used ∧ w.level.lastReport = some report ∧
            w.level.clamped = decide (30000 < level) ∧ w.level.stale = false ∧ w.level.expiries = 0 ∧
            w.level.staleTimer = some (s.ds + 10 * t.defn.reportTimeout) ∧
            w.level.volume = some volume ∧ w.level.aboveTable = aboveLast t.stagePoints used ∧
            w.level.previous = some { volume := volume, time := report } ∧
            (v.level.previous = none → w.level.netRate = v.level.netRate) ∧
            (∀ p, v.level.previous = some p → w.level.netRate =
              some (smoothRate v.level.netRate (rateSample volume p.volume (report - p.time)))) ∧
            (t.defn.crestLevel < used → w.level.timeToSpill = .seconds 0) ∧
            (used ≤ t.defn.crestLevel →
              (w.level.netRate.getD 0 ≤ 0 → w.level.timeToSpill = .never) ∧
              ∀ (st : StageTable) (e : Nat), t.stage = some st → w.level.netRate = some (e : Int) → 0 < e →
                ∃ n, n = ((st.vCrest - volume) * 100 + e - 1) / e ∧
                  w.level.timeToSpill = if 604800 < n then .never else .seconds n) ∧
            (w.level.imminent = true ↔ ∃ n, w.level.timeToSpill = .seconds n ∧ n ≤ s.alloc.imminentThreshold) ∧
            w.supervisor = { v.supervisor with
              reportMark := true, levelLost := v.supervisor.levelLost && decide (t.defn.faultReaction = .latch) } ∧
            w.op = formOp t.defn w.level w.supervisor s.orders[i].active)

/-- A stale expiry sets and posts STALE, counts and restarts the timer; where the count is at lost_limit and LEVEL_LOST is clear it
raises LEVEL_LOST, closes the spill LOST and withdraws the tank (R38, R39, R170). -/
def Obligations.SilenceIsTimed : Prop :=
  ∀ (s : State) (i : Fin 32) (t : Tank) (v : Service) (e : Nat), s.resetAsserted = false → s.tanks[i] = some t →
    t.service = some v → v.level.staleTimer = some e → e ≤ s.ds →
    ∃ l : LevelState,
      l = { v.level with
        stale := true, expiries := min t.defn.lostLimit (v.level.expiries + 1)
        staleTimer := some (s.ds + 10 * t.defn.reportTimeout) } ∧
      (l.expiries < t.defn.lostLimit ∨ v.supervisor.levelLost = true →
        exec (.staleExpiry i) s =
          .next ((s.setTank i (some { t with service := some { v with level := l } })).postTank i [.stale])) ∧
      (l.expiries = t.defn.lostLimit → v.supervisor.levelLost = false →
        ∃ (book : SpillBook) (posts : List TankPost) (w : Service),
          exec (.staleExpiry i) s = .next (((s.setTank i (some { t with book := book, service := some w })).postTank i
            ([.stale, .levelLost] ++ posts)).withdraw fun j => j == i) ∧
          w = { op := .faulted, level := l, supervisor := { v.supervisor with levelLost := true }, spilling := .quiet } ∧
          ((∀ ev, v.spilling ≠ .event ev) → book = t.book ∧ posts = []) ∧
          ∀ ev r, v.spilling = .event ev → v.level.lastReport = some r →
            book = t.book.close .lost r ev ∧ posts = [.spillClosed .lost])

/-! ### Faults -/

/-- CLEAR_FAULT: its checks in order, and the faults and counters it clears (R56, R57). Bits 7 to 2 of the cleared byte have no
assigned meaning and are 0, which is the model's choice (log 14). -/
def Obligations.FaultsCleared : Prop :=
  ∀ (s : State) (tag : Byte) (tank : Nat), s.takes tag (.clearFault tank) →
    (31 < tank → RefusedWith (.clearFault tank) s tag .badIndex) ∧
    ∀ i : Fin 32, i.val = tank →
      (s.tanks[i] = none → RefusedWith (.clearFault tank) s tag .notDefined) ∧
      ∀ t, s.tanks[i] = some t →
        (t.service = none → RefusedWith (.clearFault tank) s tag .notInService) ∧
        ∀ v, t.service = some v →
          (v.supervisor.stall = false → v.supervisor.levelLost = false →
            exec (.clearFault tank) s = .next (State.replied tag .ok (bytesOf 1 0 ++ bytesOf 1 v.op.code) s)) ∧
          (v.supervisor.stall = true ∨ v.supervisor.levelLost = true → ∃ w : Service,
            w = { v with
              supervisor := { v.supervisor with stallCounter := 0, goodCounter := 0, stall := false, levelLost := false }
              op := formOp t.defn v.level
                { v.supervisor with stallCounter := 0, goodCounter := 0, stall := false, levelLost := false }
                s.orders[i].active } ∧
            exec (.clearFault tank) s = .next (State.replied tag .ok
              (bytesOf 1 ((if v.supervisor.stall then 1 else 0) + (if v.supervisor.levelLost then 2 else 0)) ++
                bytesOf 1 w.op.code)
              { s with tanks := s.tanks.set i (some { t with service := some w }) }))

/-- The stall evaluation of one tank: without evidence, good or stall, with the counters, STALL and the notices it posts (R47 to R49,
R52, R54); and the stage: each IN_SERVICE tank is judged on its own, its op state is formed anew where STALL moved, and a tank
that latches is withdrawn (R48, R52). -/
def Obligations.StallsJudgedAndLatched : Prop :=
  (∀ (d : TankDef) (active : Nat) (v : Service), ∃ (n : Supervisor) (posts : List TankPost),
     v.evaluated d active = (n, posts) ∧
     (active = 0 ∨ v.supervisor.reportMark = false ∨ v.supervisor.snapshot = none →
       n = { v.supervisor with reportMark := false } ∧ posts = []) ∧
     ∀ before after : Nat, 0 < active → v.supervisor.reportMark = true → v.supervisor.snapshot = some before →
       v.level.lastLevel = some after →
       (after + d.fallMin ≤ before →
         n = { v.supervisor with
           reportMark := false, stallCounter := 0, goodCounter := min d.stallCount (v.supervisor.goodCounter + 1)
           stall := v.supervisor.stall &&
             !decide (d.stallCount ≤ v.supervisor.goodCounter + 1 ∧ d.faultReaction = .retry) } ∧
         posts = if v.supervisor.stall = true ∧ n.stall = false then [.stallCleared] else []) ∧
       (before < after + d.fallMin →
         n = { v.supervisor with
           reportMark := false, goodCounter := 0, stallCounter := min d.stallCount (v.supervisor.stallCounter + 1)
           stall := v.supervisor.stall || decide (d.stallCount ≤ v.supervisor.stallCounter + 1) } ∧
         posts = if v.supervisor.stall = false ∧ n.stall = true then [.stall] else [])) ∧
  (∀ s : State, ∃ u : State,
     stallStage s = u.withdraw (fun i => match s.serviceAt i with
       | some (t, v) => !v.supervisor.stall && (v.evaluated t.defn s.orders[i].active).1.stall &&
           decide (t.defn.faultReaction = .latch)
       | none => false) ∧
     u = { s with tanks := u.tanks, notices := u.notices } ∧
     u.notices = (s.postTanks fun i => match s.serviceAt i with
       | some (t, v) => (v.evaluated t.defn s.orders[i].active).2
       | none => []).notices ∧
     ∀ i : Fin 32, u.tanks[i] = (s.tanks[i]).map fun t => { t with service := t.service.map fun v =>
       { v with
         supervisor := (v.evaluated t.defn s.orders[i].active).1
         op := if (v.evaluated t.defn s.orders[i].active).1.stall = v.supervisor.stall then v.op
           else formOp t.defn v.level (v.evaluated t.defn s.orders[i].active).1 s.orders[i].active } })

/-! ### Orders and the Allocator -/

/-- An immediate zeroing with withdrawal: both orders 0, marks kept, the direction change and the op state of R130 where an active order
fell, and the run order list without those tanks (R51, R130, R132). -/
def Obligations.WithdrawalZeroesOrders : Prop :=
  ∀ (s : State) (p : Fin 32 → Bool), ∃ u : State, u = s.withdraw p ∧
    u = { s with
      tanks := u.tanks, orders := u.orders
      alloc := { s.alloc with runOrder := s.alloc.runOrder.filter fun i => !p i } } ∧
    ∀ i : Fin 32,
      (p i = false → u.orders[i] = s.orders[i] ∧ u.tanks[i] = s.tanks[i]) ∧
      (p i = true →
        u.orders[i] = { active := 0, next := 0, mark := s.orders[i].mark
                        activeChanged := s.orders[i].activeChanged || s.orders[i].active != 0 } ∧
        (s.orders[i].active = 0 → u.tanks[i] = s.tanks[i]) ∧
        (s.orders[i].active ≠ 0 → u.tanks[i] = (s.tanks[i]).map fun t => { t with service := t.service.map fun v =>
          { v with
            supervisor := { v.supervisor with stallCounter := 0, goodCounter := 0, snapshot := none }
            op := formOp t.defn v.level { v.supervisor with stallCounter := 0, goodCounter := 0, snapshot := none } 0 } }))

/-- START_ALLOCATION; STOP_ALLOCATION, with what it leaves of every order and tank (R105, R106, R130). The rounding of the seconds
left in RUNNING is free (log 9). -/
def Obligations.AllocationStartsAndStops : Prop :=
  (∀ (s : State) (tag : Byte), s.takes tag .startAllocation →
    (s.alloc.running = false → ∃ u : State, u = computation { s with alloc := { s.alloc with running := true } } ∧
      exec .startAllocation s = .next (State.replied tag .ok (bytesOf 2 s.alloc.period)
        { u with alloc := { u.alloc with periodTimer := some (s.ds + 10 * s.alloc.period) } })) ∧
    (∀ e, s.alloc.running = true → s.alloc.periodTimer = some e → ∃ left : Nat,
      ((e - s.ds) / 10 ≤ left ∧ left ≤ (e - s.ds + 9) / 10) ∧
      exec .startAllocation s = .next (State.replied tag .ok (bytesOf 2 left) s))) ∧
  ∀ (s : State) (tag : Byte), s.takes tag .stopAllocation →
    (s.alloc.running = false → RefusedWith .stopAllocation s tag .stopped) ∧
    (s.alloc.running = true → ∃ u : State, exec .stopAllocation s = .next (State.replied tag .ok [] u) ∧
      u = { s with
        orders := u.orders, tanks := u.tanks
        alloc := { s.alloc with running := false, periodTimer := none, runOrder := [], overrun := false } } ∧
      ∀ i : Fin 32,
        u.orders[i] = { active := 0, next := 0, mark := s.orders[i].mark
                        activeChanged := s.orders[i].activeChanged || s.orders[i].active != 0 } ∧
        ActiveChange s.orders[i].active 0 s.tanks[i] u.tanks[i])

/-- The computation: A0 (R110), M and the manual orders (R111), the demand of each eligible tank with its probe limit (R53, R113), the
grants one after another in grant order out of A0 less M with the guard band and Rmin (R112, R116), what is stored while TRIPPED
(R128), the overrun flag with BUDGET_OVERRUN (R111), the last computation record, and nothing else (R109). -/
def Obligations.GrantsFitTheBudget : Prop :=
  (∀ s : State,
    ((∃ e, s.guard.trip = .tripped e) ∨ (∃ a b c d, s.guard.hold = .held a b c d) → availableBudget s = 0) ∧
    ((∀ e, s.guard.trip ≠ .tripped e) → (∃ a b, s.guard.hold = .overridden a b) →
      availableBudget s = min s.alloc.budget s.alloc.overrideBudget) ∧
    ((∀ e, s.guard.trip ≠ .tripped e) → s.guard.hold = .noHold → availableBudget s = s.alloc.budget) ∧
    (s.guard.isTripped = true ↔ ∃ e, s.guard.trip = .tripped e)) ∧
  ∀ s : State, ∃ (u : State) (manual automatic remaining : Nat), u = computation s ∧
    manual = (sumTanks fun i => match s.serviceAt i with
      | some (t, v) =>
        if t.pendingMode.mode = .manual ∧ v.op ≠ .faulted ∧ t.inhibited = false then t.pendingMode.value else 0
      | none => 0) ∧
    automatic = availableBudget s - manual ∧
    u = { s with
      orders := u.orders
      notices := if s.alloc.budget < manual then (s.postAllocation .budgetOverrun).notices else s.notices
      alloc := { s.alloc with
        runOrder := u.alloc.runOrder, overrun := decide (s.alloc.budget < manual)
        last := some { time := s.ds / 10, available := availableBudget s, manual := manual, remaining := remaining } } } ∧
    (sumTanks fun i => if s.eligible i then u.orders[i].next else 0) + remaining = automatic ∧
    (∀ i : Fin 32, u.orders[i].active = s.orders[i].active ∧ u.orders[i].activeChanged = s.orders[i].activeChanged ∧
      (s.inService i = false → u.orders[i].next = 0 ∧ u.orders[i].mark = .noMark) ∧
      ∀ t v, s.tanks[i] = some t → t.service = some v →
        (t.pendingMode.mode = .manual → u.orders[i].mark = .manual ∧
          u.orders[i].next = if v.op = .faulted ∨ t.inhibited = true ∨ s.guard.isTripped = true ∧ t.inForce.mode = .auto
            then 0 else t.pendingMode.value) ∧
        (t.pendingMode.mode = .auto → u.orders[i].mark = .auto ∧ (s.eligible i = false → u.orders[i].next = 0))) ∧
    ∀ (before after : List (Fin 32)) (i : Fin 32) (t : Tank) (v : Service) (table : StageTable) (volume : Nat),
      u.alloc.runOrder = before ++ i :: after → s.tanks[i] = some t → t.service = some v → t.stage = some table →
      v.level.volume = some volume → ∃ q ordinary demand left first guarded : Nat,
        q = ((volume - table.vDry) * 100 + s.alloc.period - 1) / s.alloc.period ∧
        ordinary = min t.defn.rMax (max q t.defn.rMin) ∧
        demand = (if v.supervisor.stall = true ∧ t.defn.faultReaction = .retry
          then min ordinary (if t.defn.rMin = 0 then (t.defn.rMax + 7) / 8 else t.defn.rMin) else ordinary) ∧
        left = automatic - (before.map fun j => u.orders[j].next).sum ∧
        first = min demand left ∧
        guarded = (if s.orders[i].active = 0 then min first (left - s.alloc.guardBand) else first) ∧
        u.orders[i].next = if guarded < t.defn.rMin then 0 else guarded

/-- The run order list after a computation: the eligible tanks (R112), each once, in grant order (R115), by the classes of R114. That the
catchment of a tank counts as NONE where it is undefined is the model's choice (log 19). -/
def Obligations.RunListInGrantOrder : Prop :=
  ∀ s : State,
    (∀ i : Fin 32, i ∈ (computation s).alloc.runOrder ↔
      ∃ (t : Tank) (v : Service) (table : StageTable) (volume : Nat), s.tanks[i] = some t ∧ t.service = some v ∧
        t.pendingMode.mode = .auto ∧ t.inForce.mode = .auto ∧ v.op ≠ .awaitLevel ∧ v.op ≠ .faulted ∧ t.inhibited = false ∧
        t.stage = some table ∧ v.level.volume = some volume ∧ table.vDry < volume) ∧
    (∀ i : Fin 32, s.eligible i = true ↔ i ∈ (computation s).alloc.runOrder) ∧
    (computation s).alloc.runOrder.Nodup ∧ (computation s).alloc.runOrder.length ≤ 32 ∧
    (computation s).alloc.runOrder.Pairwise (GrantBefore s) ∧
    ∀ (t : Tank) (v : Service), tankClass s t v =
      if v.spilling ≠ .quiet ∨ v.level.imminent = true then 0
      else match s.catchments[t.defn.catchment] with
        | some c => if c.effective = .warning ∨ c.effective = .severe then 1 else 2
        | none => 2

/-- Promotion: next orders become active where their mark agrees with the pending mode, pending modes come in force, tanks whose mode
becomes MANUAL leave the list, and snapshots are taken (R12, R50, R129, R130). -/
def Obligations.PromotionPutsInForce : Prop :=
  ∀ s : State, ∃ u : State, u = promoteOrders s ∧
    u = { s with
      orders := u.orders, tanks := u.tanks
      alloc := { s.alloc with
        runOrder := s.alloc.runOrder.filter fun i => !s.tankIs (fun t => t.pendingMode.mode == .manual) i } } ∧
    ∀ i : Fin 32,
      u.orders[i].next = s.orders[i].next ∧ u.orders[i].mark = s.orders[i].mark ∧
      u.orders[i].activeChanged = (s.orders[i].activeChanged || u.orders[i].active != s.orders[i].active) ∧
      (s.tanks[i] = none → u.orders[i].active = 0 ∧ u.tanks[i] = none) ∧
      ∀ t, s.tanks[i] = some t →
        (t.service = none → u.orders[i].active = 0 ∧ u.tanks[i] = some { t with inForce := t.pendingMode }) ∧
        ∀ v, t.service = some v →
          (u.orders[i].active = if s.orders[i].mark = t.pendingMode.mode.mark then s.orders[i].next else 0) ∧
          ∃ w : Service, u.tanks[i] = some { t with inForce := t.pendingMode, service := some w } ∧
            w.level = v.level ∧ w.spilling = v.spilling ∧
            (s.orders[i].active ≠ u.orders[i].active →
              w.op = formOp t.defn v.level v.supervisor u.orders[i].active) ∧
            (s.orders[i].active = u.orders[i].active → w.op = v.op) ∧
            (0 < u.orders[i].active → w.supervisor.snapshot = v.level.lastLevel) ∧
            ((s.orders[i].active = 0 ↔ u.orders[i].active = 0) →
              w.supervisor = { v.supervisor with snapshot := w.supervisor.snapshot }) ∧
            (¬(s.orders[i].active = 0 ↔ u.orders[i].active = 0) →
              w.supervisor = { v.supervisor with stallCounter := 0, goodCounter := 0, snapshot := w.supervisor.snapshot }) ∧
            (s.orders[i].active ≠ 0 → u.orders[i].active = 0 → w.supervisor.snapshot = none)

/-- The allocation run is stall evaluation, promotion with the news to the Intake Guard whether the sum rose, and computation, and it
restarts the period timer with P (R107, R131, R144). -/
def Obligations.RunHasThreeStages : Prop :=
  (∀ (s : State) (e : Nat), s.resetAsserted = false → s.alloc.running = true → s.alloc.periodTimer = some e → e ≤ s.ds →
    ∃ a b c : State, a = stallStage s ∧
      b = (if (sumTanks fun i => a.orders[i].active) < (sumTanks fun i => (promoteOrders a).orders[i].active)
        then sumRose (promoteOrders a) else promoteOrders a) ∧
      c = computation b ∧
      exec .allocationRun s =
        .next { c with alloc := { c.alloc with periodTimer := some (s.ds + 10 * s.alloc.period) } }) ∧
  ∀ s : State,
    (∀ f, s.guard.trip = .armed f → 0 < s.guard.blankTime →
      sumRose s = { s with guard := { s.guard with trip := .blanked (s.ds + 10 * s.guard.blankTime) } }) ∧
    (∀ f, s.guard.trip = .armed f → s.guard.blankTime = 0 → sumRose s = s) ∧
    (∀ e, s.guard.trip = .blanked e → 0 < s.guard.blankTime →
      sumRose s = { s with guard := { s.guard with trip := .blanked (s.ds + 10 * s.guard.blankTime) } }) ∧
    (∀ e, s.guard.trip = .blanked e → s.guard.blankTime = 0 → sumRose s = enterArmed s) ∧
    (∀ e, s.guard.trip = .tripped e → sumRose s = s)

/-- A fall of B while RUNNING sheds: in both buffers the automatic orders then fit into the new B less the manual orders, each tank of
the shed order is cut by what the tanks before it have left over and no other order changes, the effects of R130 follow where an
active order changed, and BUDGET_SHED tells of it; otherwise B changes and nothing else (R102, R103, R118 to R122). -/
def Obligations.ShedFitsTheBudget : Prop :=
  ∀ (s : State) (b : Nat),
    (s.alloc.running = false ∨ s.alloc.budget ≤ b → setBudget b s = { s with alloc := { s.alloc with budget := b } }) ∧
    (s.alloc.running = true → b < s.alloc.budget → ∃ u : State, u = setBudget b s ∧
      OrdersWithinBudget u ∧
      u = { s with
        alloc := { s.alloc with budget := b }, orders := u.orders, tanks := u.tanks, notices := u.notices } ∧
      (∀ i : Fin 32, u.orders[i].active ≤ s.orders[i].active ∧ u.orders[i].next ≤ s.orders[i].next ∧
        u.orders[i].mark = s.orders[i].mark ∧
        u.orders[i].activeChanged = (s.orders[i].activeChanged || u.orders[i].active != s.orders[i].active) ∧
        ActiveChange s.orders[i].active u.orders[i].active s.tanks[i] u.tanks[i] ∧
        (s.autoActive i = false → u.orders[i].active = s.orders[i].active) ∧
        (s.autoNext i = false → u.orders[i].next = s.orders[i].next) ∧
        (u.orders[i].active ≠ s.orders[i].active → u.orders[i].active = 0 ∨ s.rMinAt i ≤ u.orders[i].active) ∧
        (u.orders[i].next ≠ s.orders[i].next → u.orders[i].next = 0 ∨ s.rMinAt i ≤ u.orders[i].next)) ∧
      (s.alloc.runOrder.Nodup →
        ShedLeaves s b s.autoActive s.manualActive (fun i => s.orders[i].active) (fun i => u.orders[i].active) ∧
        ShedLeaves s b s.autoNext s.manualNext (fun i => s.orders[i].next) (fun i => u.orders[i].next)) ∧
      ((∃ i : Fin 32, u.orders[i].active ≠ s.orders[i].active ∨ u.orders[i].next ≠ s.orders[i].next) →
        u.notices = (s.postAllocation .budgetShed).notices) ∧
      ((∀ i : Fin 32, u.orders[i].active = s.orders[i].active ∧ u.orders[i].next = s.orders[i].next) →
        u.notices = s.notices ∧ u.orders = s.orders))

/-- SET_BANK, a change of a CAP_SEL line and the settle expiry (R100 to R103). -/
def Obligations.BankSelectionSettles : Prop :=
  (∀ (s : State) (tag : Byte) (bank budget : Nat), s.takes tag (.setBank bank budget) →
    (7 < bank → RefusedWith (.setBank bank budget) s tag .badIndex) ∧
    ∀ k : Fin 8, k.val = bank → ∃ u : State,
      u = { s with alloc := { s.alloc with banks := s.alloc.banks.set k budget } } ∧
      (k ≠ s.alloc.selected → exec (.setBank bank budget) s = .next (State.replied tag .ok
        (bytesOf 1 bank ++ bytesOf 2 budget ++ bytesOf 2 s.alloc.budget) u)) ∧
      (k = s.alloc.selected → exec (.setBank bank budget) s = .next (State.replied tag .ok
        (bytesOf 1 bank ++ bytesOf 2 budget ++ bytesOf 2 budget) (setBudget budget u)))) ∧
  (∀ (s : State) (line : Fin 3) (level : Bool) (k : Fin 8) (lines : Vector Bool 3), s.resetAsserted = false →
    s.pins.capSel[line] ≠ level → lines = s.pins.capSel.set line level →
    k.val = (if lines[0] then 1 else 0) + (if lines[1] then 2 else 0) + (if lines[2] then 4 else 0) →
    exec (.capSelChange line level) s = .next { s with
      pins := { s.pins with capSel := lines }
      alloc := { s.alloc with
        observed := k
        settleTimer := if k = s.alloc.selected then none else some (s.ds + 10 * s.alloc.settleTime) } }) ∧
  ∀ (s : State) (e : Nat), s.resetAsserted = false → s.alloc.settleTimer = some e → e ≤ s.ds →
    exec .settleExpiry s = .next ((setBudget s.alloc.banks[s.alloc.observed]
      { s with alloc := { s.alloc with selected := s.alloc.observed, settleTimer := none } }).postAllocation .bankChanged)

/-- READ_ORDERS shows every order as it stands and then clears every active_changed flag (R136, R137). The mode bit of an UNDEFINED tank
is free (log 12); bits 7 to 4 of each tank's last byte have no assigned meaning and are 0, which is the model's choice (log 14). -/
def Obligations.OrdersReadAndFlagsCleared : Prop :=
  ∃ free : Nat, free ≤ 1 ∧ ∀ (s : State) (tag : Byte), s.takes tag .readOrders →
    exec .readOrders s = .next (State.replied tag .ok
      (bytesOf 1 (if s.alloc.running then 1 else 0) ++
        (match s.alloc.periodTimer with
          | some e => bytesOf 2 ((e - s.ds + 9) / 10)
          | none => [255, 255]) ++
        bytesOf 1 (match s.guard.trip with | .armed _ => 0 | .blanked _ => 1 | .tripped _ => 2) ++
        bytesOf 1 (match s.guard.hold with | .noHold => 0 | .held _ _ _ _ => 1 | .overridden _ _ => 2) ++
        (List.finRange 32).flatMap fun i : Fin 32 =>
          bytesOf 2 s.orders[i].active ++ bytesOf 2 s.orders[i].next ++
            bytesOf 1 ((match s.orders[i].mark with | .noMark => 0 | .auto => 1 | .manual => 2) +
              4 * (match s.tanks[i] with
                | some t => if t.inForce.mode = .manual then 1 else 0
                | none => free) +
              (if s.orders[i].activeChanged then 8 else 0)))
      { s with orders := s.orders.map fun e => { e with activeChanged := false } })

/-! ### The Intake Guard -/

/-- Entry into TRIPPED, with what it leaves of every tank and order (R51, R130, R133, R155), at the filter expiry and at a change of
INTAKE_HIGH where F is 0, and what else a change of the line does in each trip state (R140, R142, R143). -/
def Obligations.TripEntered : Prop :=
  (∀ s : State, ∃ u : State, u = enterTripped s ∧
    u = { s with
      tanks := u.tanks, orders := u.orders, notices := (s.postAllocation .trip).notices
      guard := { s.guard with
        trip := .tripped (s.ds + 10 * s.guard.offTime), tripCount := min 65535 (s.guard.tripCount + 1) } } ∧
    ∀ i : Fin 32,
      (s.inService i = false → u.orders[i] = s.orders[i] ∧ u.tanks[i] = s.tanks[i]) ∧
      ∀ (t : Tank) (v : Service), s.tanks[i] = some t → t.service = some v → ∃ (flagged : Tank) (w : Service),
        w = { v with spilling := match v.spilling with
          | .event ev => .event { ev with restricted := true }
          | .candidate c => .candidate c
          | .quiet => .quiet } ∧
        flagged = { t with service := some w } ∧
        (t.inForce.mode = .manual → u.orders[i] = s.orders[i] ∧ u.tanks[i] = some flagged) ∧
        (t.inForce.mode = .auto →
          u.orders[i] = { active := 0, next := 0, mark := s.orders[i].mark
                          activeChanged := s.orders[i].activeChanged || s.orders[i].active != 0 } ∧
          ActiveChange s.orders[i].active 0 (some flagged) u.tanks[i])) ∧
  (∀ (s : State) (e : Nat), s.resetAsserted = false → s.guard.trip = .armed (some e) → e ≤ s.ds →
    exec .filterExpiry s = .next (enterTripped s)) ∧
  ∀ (s : State) (level : Bool), s.resetAsserted = false → s.pins.intakeHigh ≠ level → ∃ u : State,
    u = { s with pins := { s.pins with intakeHigh := level }, guard := { s.guard with lineHigh := level } } ∧
    ((∀ f, s.guard.trip ≠ .armed f) → exec (.intakeHighChange level) s = .next u) ∧
    ∀ f, s.guard.trip = .armed f →
      (level = false → exec (.intakeHighChange level) s = .next (u.setTrip (.armed none))) ∧
      (level = true → 0 < s.guard.filterTime →
        exec (.intakeHighChange level) s = .next (u.setTrip (.armed (some (s.ds + 10 * s.guard.filterTime))))) ∧
      (level = true → s.guard.filterTime = 0 → exec (.intakeHighChange level) s = .next (enterTripped u))

/-- The blank expiry, the off-timer expiry and RESUME (R145 to R147). -/
def Obligations.TripEnds : Prop :=
  (∀ s : State,
    (s.guard.lineHigh = false → enterArmed s = s.setTrip (.armed none)) ∧
    (s.guard.lineHigh = true → 0 < s.guard.filterTime →
      enterArmed s = s.setTrip (.armed (some (s.ds + 10 * s.guard.filterTime)))) ∧
    (s.guard.lineHigh = true → s.guard.filterTime = 0 → enterArmed s = enterTripped (s.setTrip (.armed none)))) ∧
  (∀ (s : State) (e : Nat), s.resetAsserted = false → s.guard.trip = .blanked e → e ≤ s.ds →
    exec .blankExpiry s = .next (enterArmed s)) ∧
  (∀ (s : State) (e : Nat), s.resetAsserted = false → s.guard.trip = .tripped e → e ≤ s.ds →
    (s.guard.lineHigh = true → exec .offTimerExpiry s = .next { s with guard := { s.guard with
      trip := .tripped (s.ds + 10 * s.guard.offTime), extensionCount := min 65535 (s.guard.extensionCount + 1) } }) ∧
    (s.guard.lineHigh = false → ∃ u : State, u = (s.setTrip (.armed none)).postAllocation .tripCleared ∧
      exec .offTimerExpiry s = .next (if s.alloc.running then computation u else u))) ∧
  ∀ (s : State) (tag : Byte), s.takes tag .resume →
    ((∀ e, s.guard.trip ≠ .tripped e) → RefusedWith .resume s tag .notTripped) ∧
    ∀ e, s.guard.trip = .tripped e → ∃ u : State,
      (0 < s.guard.blankTime →
        u = (s.postAllocation .tripCleared).setTrip (.blanked (s.ds + 10 * s.guard.blankTime))) ∧
      (s.guard.blankTime = 0 → u = enterArmed (s.postAllocation .tripCleared)) ∧
      exec .resume s = .next (State.replied tag .ok
        [match u.guard.trip with | .armed _ => 0 | .blanked _ => 1 | .tripped _ => 2]
        (if s.alloc.running then computation u else u))

/-- HOLD in each hold state, RELEASE, and the end expiry (R134, R149 to R153, R155). That HOLD of 0 is refused BAD_VALUE also in
OVERRIDDEN is deduced (log 16). The rounding of the seconds remaining is free (log 9). -/
def Obligations.WorksHoldRunsItsCourse : Prop :=
  (∀ (s : State) (tag : Byte) (duration : Nat), s.takes tag (.hold duration) →
    (duration = 0 → RefusedWith (.hold duration) s tag .badValue) ∧
    (duration ≠ 0 → ∀ start limit, s.guard.hold = .overridden start limit →
      RefusedWith (.hold duration) s tag .holdLocked) ∧
    (duration ≠ 0 → s.guard.hold = .noHold → ∃ (u : State) (length : Nat),
      length = min (min duration 86400) s.guard.longestHold ∧
      exec (.hold duration) s = .next (State.replied tag .ok
        ([1] ++ bytesOf 4 (s.ds / 10) ++ bytesOf 4 (s.ds / 10 + length) ++ bytesOf 4 length) u) ∧
      u = { s with
        guard := { s.guard with
          hold := .held (s.ds / 10) (s.ds / 10 + s.guard.longestHold) (s.ds / 10 + length) (s.ds + 10 * length) }
        orders := s.orders.map fun e => if e.mark = .auto then { e with next := 0 } else e
        tanks := u.tanks } ∧
      ∀ i : Fin 32, u.tanks[i] = (s.tanks[i]).map fun t => { t with service := t.service.map fun v =>
        { v with spilling := match v.spilling with
          | .event e => .event { e with restricted := true }
          | .candidate c => .candidate c
          | .quiet => .quiet } }) ∧
    (∀ start limit stop timer, duration ≠ 0 → s.guard.hold = .held start limit stop timer → ∃ moved left : Nat,
      moved = min (max stop (s.ds / 10 + min duration 86400)) limit ∧
      (moved = stop → (timer - s.ds) / 10 ≤ left ∧ left ≤ (timer - s.ds + 9) / 10 ∧
        exec (.hold duration) s = .next (State.replied tag .ok
          ([1] ++ bytesOf 4 start ++ bytesOf 4 stop ++ bytesOf 4 left) s)) ∧
      (moved ≠ stop → left = moved - s.ds / 10 ∧
        exec (.hold duration) s = .next (State.replied tag .ok
          ([1] ++ bytesOf 4 start ++ bytesOf 4 moved ++ bytesOf 4 left)
          { s with guard := { s.guard with
              hold := .held start limit moved (s.ds + 10 * (moved - s.ds / 10)) } })))) ∧
  (∀ (s : State) (tag : Byte), s.takes tag .release → ∃ u : State,
    u = { s with guard := { s.guard with hold := .noHold } } ∧
    (s.guard.hold = .noHold → RefusedWith .release s tag .notHeld) ∧
    (s.guard.hold ≠ .noHold → exec .release s = .next (State.replied tag .ok
      [match s.guard.hold with | .noHold => 0 | .held _ _ _ _ => 1 | .overridden _ _ => 2]
      (if s.alloc.running then computation u else u)))) ∧
  ∀ (s : State) (start limit stop timer : Nat), s.resetAsserted = false → s.guard.hold = .held start limit stop timer →
    timer ≤ s.ds →
    (stop ≠ limit → ∃ u : State,
      u = ({ s with guard := { s.guard with hold := .noHold } }).postAllocation .holdEnded ∧
      exec .holdEndExpiry s = .next (if s.alloc.running then computation u else u)) ∧
    (stop = limit → ∃ flagged u : State,
      flagged = { s with guard := { s.guard with hold := .overridden start limit }, tanks := flagged.tanks } ∧
      (∀ i : Fin 32, flagged.tanks[i] = (s.tanks[i]).map fun t => { t with service := t.service.map fun v =>
        { v with spilling := match v.spilling with
          | .event e => .event { e with restricted := true }
          | .candidate c => .candidate c
          | .quiet => .quiet } }) ∧
      u = flagged.postAllocation .holdOverridden ∧
      exec .holdEndExpiry s = .next (if s.alloc.running then computation u else u))

/-! ### Spills -/

/-- Candidates and openings: created above the crest, integrated, dropped at or below it, and confirmed into an event that is counted with
a new window or merged (R160 to R166). -/
def Obligations.SpillBeginsAndOpens : Prop :=
  ∀ (d : TankDef) (rating : List Point) (hours : Nat) (restricted : Bool) (alert : AlertLevel) (level report : Nat)
    (b : SpillBook),
    (∀ c, level ≤ d.crestLevel →
      spillReport d rating hours restricted alert level report .quiet b = { book := b, spilling := .quiet, posts := [] } ∧
      spillReport d rating hours restricted alert level report (.candidate c) b =
        { book := b, spilling := .quiet, posts := [] }) ∧
    (d.crestLevel < level → ∀ (held : Spilling) (n : Candidate),
      (held = .quiet ∧ n = { start := report, litres := 0, previousRate := interpolate rating (level - d.crestLevel)
                             previousReport := report, peakHead := level - d.crestLevel } ∨
       ∃ c, held = .candidate c ∧ n = { c with
         litres := min 4294967295 (c.litres + c.previousRate * min (report - c.previousReport) d.reportTimeout)
         previousRate := interpolate rating (level - d.crestLevel), previousReport := report
         peakHead := max c.peakHead (level - d.crestLevel) }) →
      (report < n.start + d.confirmTime →
        spillReport d rating hours restricted alert level report held b =
          { book := b, spilling := .candidate n, posts := [] }) ∧
      (n.start + d.confirmTime ≤ report → ∃ (mark : CountMark) (counted : Nat) (window : Option Window),
        spillReport d rating hours restricted alert level report held b =
          { book := { b with
              counters := { b.counters with begun := min 65535 (b.counters.begun + 1), counted := counted }
              window := window }
            spilling := .event
              { start := n.start, accountedFrom := n.start, litres := n.litres, peakHead := n.peakHead
                previousRate := n.previousRate, previousReport := n.previousReport, mark := mark, restricted := restricted
                alertAtOpen := alert, peakAlert := alert, quietStart := none }
            posts := [.spillOpen] } ∧
        (∀ w, b.window = some w → n.start < w.stop →
          mark = .merged ∧ counted = b.counters.counted ∧ window = b.window) ∧
        ((∀ w, b.window = some w → w.stop ≤ n.start) →
          mark = .counted ∧ counted = min 65535 (b.counters.counted + 1) ∧
            window = some { start := n.start, stop := n.start + hours * 3600 })))

/-- An open event at a report: integration and peaks, then the quiet run and the close ENDED at its start (R165 to R168), and the fold of
every close (R169). -/
def Obligations.SpillEndsAndFolds : Prop :=
  (∀ (d : TankDef) (rating : List Point) (hours : Nat) (restricted : Bool) (alert : AlertLevel) (level report : Nat)
    (b : SpillBook) (e n : SpillEvent),
    n = { e with
      litres := min 4294967295 (e.litres + e.previousRate * min (report - e.previousReport) d.reportTimeout)
      previousRate := interpolate rating (level - d.crestLevel), previousReport := report
      peakHead := max e.peakHead (level - d.crestLevel)
      peakAlert := if e.peakAlert.code < alert.code then alert else e.peakAlert } →
    (d.crestLevel - d.endHysteresis < level →
      spillReport d rating hours restricted alert level report (.event e) b =
        { book := b, spilling := .event { n with quietStart := none }, posts := [] }) ∧
    (level ≤ d.crestLevel - d.endHysteresis →
      (e.quietStart = none → spillReport d rating hours restricted alert level report (.event e) b =
        { book := b, spilling := .event { n with quietStart := some report }, posts := [] }) ∧
      ∀ q, e.quietStart = some q →
        (report < q + d.quietTime → spillReport d rating hours restricted alert level report (.event e) b =
          { book := b, spilling := .event n, posts := [] }) ∧
        (q + d.quietTime ≤ report → spillReport d rating hours restricted alert level report (.event e) b =
          { book := b.close .ended q n, spilling := .quiet, posts := [.spillClosed .ended] }))) ∧
  ∀ (b : SpillBook) (mark : CloseMark) (stop : Nat) (e : SpillEvent), b.close mark stop e =
    { counters := { b.counters with
        seconds := min 4294967295 (b.counters.seconds + (stop - e.accountedFrom))
        litres := min (2 ^ 48 - 1) (b.counters.litres + e.litres)
        restricted := if e.restricted then min 65535 (b.counters.restricted + 1) else b.counters.restricted }
      window := b.window.map fun w => { start := w.start, stop := if w.stop < stop then stop else w.stop }
      lastClose := some { mark := mark, start := e.start, stop := stop, seconds := stop - e.accountedFrom
                          litres := e.litres, restricted := e.restricted } }

/-- RESET_COUNTS of one tank: its checks, the old counters, and the split of an open event (R175); with ALL it resets every defined
tank as RESET_COUNTS does and answers with the saturated sums (R176). -/
def Obligations.CountsResetOfOneAndAll : Prop :=
  (∀ c : SpillCounters, c.bytes =
    laidOut [(2, c.begun), (2, c.counted), (4, c.seconds), (6, c.litres), (2, c.restricted)]) ∧
  (∀ (s : State) (tag : Byte) (tank : Nat), s.takes tag (.resetCounts tank) →
     (31 < tank → RefusedWith (.resetCounts tank) s tag .badIndex) ∧
     ∀ i : Fin 32, i.val = tank →
       (s.tanks[i] = none → RefusedWith (.resetCounts tank) s tag .notDefined) ∧
       ∀ t, s.tanks[i] = some t →
         ((∀ v e, t.service = some v → v.spilling ≠ .event e) →
           exec (.resetCounts tank) s = .next (State.replied tag .ok (t.book.counters.bytes ++ bytesOf 1 0)
             { s with tanks := s.tanks.set i (some { t with book := { t.book with
                 counters := { begun := 0, counted := 0, seconds := 0, litres := 0, restricted := 0 }
                 window := none } }) })) ∧
         ∀ v e, t.service = some v → v.spilling = .event e →
           exec (.resetCounts tank) s = .next (State.replied tag .ok
             (SpillCounters.bytes { t.book.counters with
                 seconds := min 4294967295 (t.book.counters.seconds + (s.ds / 10 - e.accountedFrom))
                 litres := min (2 ^ 48 - 1) (t.book.counters.litres + e.litres) } ++ bytesOf 1 1)
             { s with tanks := s.tanks.set i (some { t with
                 service := some { v with spilling := .event { e with
                   accountedFrom := s.ds / 10, litres := 0, mark := .counted } }
                 book := { t.book with
                   counters := { begun := 1, counted := 1, seconds := 0, litres := 0, restricted := 0 }
                   window := some { start := e.start, stop := max (e.start + s.windowHours * 3600) (s.ds / 10) } } }) })) ∧
  (∀ (s : State) (tag : Byte), s.takes tag .resetCountsAll → ∃ old : Fin 32 → Option CountsReset,
     (∀ i : Fin 32, old i = (s.tanks[i]).map (Tank.resetCounts (s.ds / 10) s.windowHours)) ∧
     exec .resetCountsAll s = .next (State.replied tag .ok
       (bytesOf 1 (sumTanks fun i => if (old i).isSome then 1 else 0) ++
         bytesOf 1 (sumTanks fun i => if ((old i).map CountsReset.split).getD false then 1 else 0) ++
         bytesOf 2 (min 65535 (sumTanks fun i => ((old i).map fun r => r.old.begun).getD 0)) ++
         bytesOf 2 (min 65535 (sumTanks fun i => ((old i).map fun r => r.old.counted).getD 0)) ++
         bytesOf 4 (min 4294967295 (sumTanks fun i => ((old i).map fun r => r.old.seconds).getD 0)) ++
         bytesOf 6 (min (2 ^ 48 - 1) (sumTanks fun i => ((old i).map fun r => r.old.litres).getD 0)) ++
         bytesOf 2 (min 65535 (sumTanks fun i => ((old i).map fun r => r.old.restricted).getD 0)))
       { s with tanks := Vector.ofFn fun i => (old i).map CountsReset.tank }) ∧
     ∀ (i : Fin 32) (r : CountsReset) (t : Tank), old i = some r → s.tanks[i] = some t →
       exec (.resetCounts i) { s with port := .busy (.request tag (.resetCounts i)) } =
         .next (State.replied tag .ok (r.old.bytes ++ bytesOf 1 (if r.split then 1 else 0)) (s.setTank i (some r.tank))))

/-! ### Reads -/

/-- READ_TANK and READ_SPILL refuse an index out of range, change nothing, and answer every field of their layouts (R19, R43, R59,
R177); the level part of READ_TANK is also the REPORT_LEVEL reply (R26). Numbers are sent most significant byte first (R181).
The rounding of the stale seconds is free (log 9). For an UNDEFINED tank every field is 0, which is deduced for the index byte, as
it is that an absent field is 0 (log 13). An unassigned bit is 0, which is the model's choice (log 14). The codes of the
enumerations are those of section 10.6. -/
def Obligations.TankReadsLaidOut : Prop :=
  (∀ width n : Nat, bytesOf 0 n = [] ∧ bytesOf (width + 1) n = BitVec.ofNat 8 (n / 256 ^ width) :: bytesOf width n) ∧
  ([OpState.awaitLevel, .dry, .filling, .storing, .draining, .faulted].map OpState.code = [0, 1, 2, 3, 4, 5] ∧
    [Combine.or, .and].map Combine.code = [0, 1] ∧ [FaultReaction.latch, .retry].map FaultReaction.code = [0, 1] ∧
    [AlertLevel.noAlert, .watch, .warning, .severe].map AlertLevel.code = [0, 1, 2, 3]) ∧
  (∀ l : LevelState, l.bytes = laidOut
    [(2, l.lastLevel.getD 0), (4, l.lastReport.getD 0),
     (1, (if l.lastLevel.isSome then 1 else 0) + (if l.netRate.isSome then 2 else 0) + (if l.clamped then 4 else 0) +
       (if l.aboveTable then 8 else 0) + (if l.stale then 16 else 0) + (if l.imminent then 32 else 0)),
     (4, l.volume.getD 0), (4, (l.netRate.getD 0 % 4294967296).toNat),
     (4, match l.timeToSpill with | .seconds n => n | .never => 4294967295 | .absent => 4294967295)]) ∧
  (∀ (s : State) (tag : Byte) (tank : Nat), s.takes tag (.readTank tank) →
    (31 < tank → RefusedWith (.readTank tank) s tag .badIndex) ∧
    ∀ i : Fin 32, i.val = tank → ∃ payload : List Byte, payload.length = 74 ∧
      exec (.readTank tank) s = .next (s.replied tag .ok payload) ∧
      (s.tanks[i] = none → payload = List.replicate 74 0) ∧
      ∀ t, s.tanks[i] = some t → ∃ (l : LevelState) (v : Supervisor) (left : Nat),
        (∀ w, t.service = some w → l = w.level ∧ v = w.supervisor) ∧
        (t.service = none →
          l = { lastLevel := none, lastReport := none, clamped := false, aboveTable := false, stale := false, volume := none
                previous := none, netRate := none, timeToSpill := .absent, imminent := false, staleTimer := none
                expiries := 0 } ∧
          v = { stallCounter := 0, goodCounter := 0, snapshot := none, reportMark := false, stall := false
                levelLost := false }) ∧
        (l.staleTimer = none → left = 65535) ∧ (∀ e, l.staleTimer = some e → EnclosedSeconds e s.ds left) ∧
        payload = laidOut
          [(1, tank), (1, if t.service.isSome then 2 else 1), (1, t.defn.catchment), (1, t.defn.zone),
           (1, match t.defn.combine with | .or => 0 | .and => 1), (1, t.defn.basePriority), (2, t.defn.dryLevel),
           (2, t.defn.crestLevel), (2, t.defn.endHysteresis), (2, t.defn.rMax), (2, t.defn.rMin), (2, t.defn.fallMin),
           (1, t.defn.stallCount), (1, match t.defn.faultReaction with | .latch => 0 | .retry => 1),
           (2, t.defn.reportTimeout), (1, t.defn.lostLimit), (2, t.defn.quietTime), (2, t.defn.confirmTime),
           (1, (t.stage.map fun st => st.points.length).getD 0), (1, (t.rating.map List.length).getD 0),
           (4, (t.stage.map StageTable.vDry).getD 0), (4, (t.stage.map StageTable.vCrest).getD 0),
           (1, match t.inForce.mode with | .auto => 0 | .manual => 1), (2, t.inForce.value),
           (1, match t.pendingMode.mode with | .auto => 0 | .manual => 1), (2, t.pendingMode.value),
           (1, (if t.softInhibit then 1 else 0) + (if s.pins.zinh[t.defn.zone] then 2 else 0) + (if t.inhibited then 4 else 0)),
           (1, match t.service with
             | none => 255
             | some w => match w.op with
               | .awaitLevel => 0 | .dry => 1 | .filling => 2 | .storing => 3 | .draining => 4 | .faulted => 5)] ++
          l.bytes ++ laidOut
          [(1, l.expiries), (2, left), (1, v.stallCounter), (1, v.goodCounter), (2, v.snapshot.getD 0),
           (1, (if v.snapshot.isSome then 1 else 0) + (if v.reportMark then 2 else 0) + (if v.stall then 4 else 0) +
             (if v.levelLost then 8 else 0)),
           (2, if t.defn.rMin = 0 then (t.defn.rMax + 7) / 8 else t.defn.rMin)]) ∧
  ∀ (s : State) (tag : Byte) (tank : Nat), s.takes tag (.readSpill tank) →
    (31 < tank → RefusedWith (.readSpill tank) s tag .badIndex) ∧
    ∀ i : Fin 32, i.val = tank → ∃ payload : List Byte, payload.length = 87 ∧
      exec (.readSpill tank) s = .next (s.replied tag .ok payload) ∧
      (s.tanks[i] = none → payload = List.replicate 87 0) ∧
      ∀ t, s.tanks[i] = some t → ∃ (held : Spilling) (candidate event window last : List Byte) (presence : Nat),
        (∀ w, t.service = some w → held = w.spilling) ∧ (t.service = none → held = .quiet) ∧
        presence = (match held with
            | .quiet => 0
            | .candidate _ => 1
            | .event e => if e.quietStart.isSome then 6 else 2) +
          (match t.book.window with
            | some w => if s.ds / 10 < w.stop then 24 else 8
            | none => 0) + (if t.book.lastClose.isSome then 32 else 0) ∧
        candidate = (match held with
          | .candidate c =>
            laidOut [(4, c.start), (4, c.litres), (2, c.previousRate), (4, c.previousReport), (2, c.peakHead)]
          | _ => List.replicate 16 0) ∧
        event = (match held with
          | .event e => laidOut
            [(4, e.start), (4, e.accountedFrom), (4, e.litres), (2, e.peakHead), (2, e.previousRate), (4, e.previousReport),
             (1, (if e.mark = .merged then 1 else 0) + (if e.restricted then 2 else 0) + 4 * e.alertAtOpen.code +
               16 * e.peakAlert.code), (4, e.quietStart.getD 0)]
          | _ => List.replicate 25 0) ∧
        window = (match t.book.window with
          | some w => laidOut [(4, w.start), (4, w.stop)]
          | none => List.replicate 8 0) ∧
        last = (match t.book.lastClose with
          | some c => laidOut
            [(1, (match c.mark with | .ended => 1 | .lost => 2 | .cut => 3) + (if c.restricted then 4 else 0)), (4, c.start),
             (4, c.stop), (4, c.seconds), (4, c.litres)]
          | none => List.replicate 17 0) ∧
        payload = laidOut
          [(1, tank), (1, 1), (1, presence), (2, t.book.counters.begun), (2, t.book.counters.counted),
           (4, t.book.counters.seconds), (6, t.book.counters.litres), (2, t.book.counters.restricted)] ++
          candidate ++ event ++ window ++ last ++ bytesOf 2 (t.defn.crestLevel - t.defn.endHysteresis)

/-- READ_GAUGE, READ_CATCHMENT and READ_ALLOCATION refuse an index out of range, change nothing, and answer every field of their layouts
(R75, R97, R123, R156). The rounding of the floor's remaining seconds is free (log 9); without a floor they are all ones, as of
every stopped timer. Absent fields are 0, which is deduced (log 13), and so is an unassigned bit, by the model's choice (log 14).
A catchment with at most four gauges and a list of at most 32 tanks are assumed, as R79 and R115 give. -/
def Obligations.RainAndAllocationReadsLaidOut : Prop :=
  (∀ (s : State) (tag : Byte) (gauge : Nat), s.takes tag (.readGauge gauge) →
    (11 < gauge → RefusedWith (.readGauge gauge) s tag .badIndex) ∧
    ∀ k : Fin 12, k.val = gauge → ∃ payload : List Byte, payload.length = 30 ∧
      exec (.readGauge gauge) s = .next (s.replied tag .ok payload) ∧
      (s.gauges[k] = none → payload = List.replicate 30 0) ∧
      ∀ g, s.gauges[k] = some g → payload = laidOut
        [(1, 1), (1, g.depthPerTip), (1, g.debounce), (4, g.dryGap), (1, match g.storm with | .dry => 0 | .wet => 1),
         (4, g.stormDepth), (2, g.tips), (1, (if g.lastTip.isSome then 1 else 0) + (if g.interval.isSome then 2 else 0)),
         (4, g.lastTip.getD 0), (2, g.interval.getD 0), (1, g.tipDepth.getD 0), (2, g.intensity s.ds),
         (2, match g.lastTip with | some last => min 65535 (s.ds - last) | none => 0), (4, roundedUp 4 s.ds g.dryTimer)]) ∧
  (∀ (s : State) (tag : Byte) (catchment : Nat), s.takes tag (.readCatchment catchment) →
    (7 < catchment → RefusedWith (.readCatchment catchment) s tag .badIndex) ∧
    ∀ k : Fin 8, k.val = catchment → (∀ c ∈ s.catchments[k], c.defn.gauges.length ≤ 4) →
      ∃ payload : List Byte, payload.length = 59 ∧ exec (.readCatchment catchment) s = .next (s.replied tag .ok payload) ∧
        (s.catchments[k] = none → payload = List.replicate 59 0) ∧
        ∀ c, s.catchments[k] = some c → ∃ level expiry left : Nat,
          (c.floor = none → level = 0 ∧ expiry = 0 ∧ left = 4294967295) ∧
          (∀ f, c.floor = some f → level = f.level.code ∧ expiry = f.expiry ∧ EnclosedSeconds f.timer s.ds left) ∧
          payload = laidOut [(1, 1), (1, c.defn.gauges.length)] ++
            (c.defn.gauges.map (fun g : Fin 12 => BitVec.ofNat 8 g.val) ++ List.replicate 4 0).take 4 ++ laidOut
            [(2, c.defn.iWatch), (2, c.defn.iWarning), (2, c.defn.iSevere), (4, c.defn.dWatch), (4, c.defn.dWarning),
             (4, c.defn.dSevere), (2, c.defn.hysteresis), (2, c.defn.holdDown), (2, c.lastIntensity), (4, c.lastDepth),
             (1, c.gaugeLevel.code),
             (1, (if c.holdStart.isSome then 1 else 0) + (if c.acknowledged then 2 else 0) + (if c.raised.isSome then 4 else 0)),
             (4, c.holdStart.getD 0),
             (2, match c.holdStart with | some start => start + c.defn.holdDown - s.ds / 10 | none => 0),
             (1, level), (4, expiry), (4, left), (1, c.effective.code), (4, c.raised.getD 0), (2, c.peak),
             (1, sumTanks fun i => match s.tanks[i] with
               | some t => if t.defn.catchment = k then 1 else 0
               | none => 0)]) ∧
  ∀ (s : State) (tag : Byte), s.takes tag .readAllocation → s.alloc.runOrder.length ≤ 32 →
    ∃ (payload last : List Byte) (start limit stop left : Nat) (presence : Nat), payload.length = 119 ∧
      exec .readAllocation s = .next (s.replied tag .ok payload) ∧
      last = (match s.alloc.last with
        | some c => laidOut [(4, c.time), (2, c.available), (2, min 65535 c.manual), (2, c.remaining)]
        | none => List.replicate 10 0) ∧
      (s.guard.hold = .noHold → presence = 0 ∧ start = 0 ∧ limit = 0 ∧ stop = 0 ∧ left = 0) ∧
      (∀ a b c timer, s.guard.hold = .held a b c timer →
        presence = 7 ∧ start = a ∧ limit = b ∧ stop = c ∧ left = (timer - s.ds + 9) / 10) ∧
      (∀ a b, s.guard.hold = .overridden a b → presence = 7 ∧ start = a ∧ limit = b ∧ stop = b ∧ left = 0) ∧
      payload =
        laidOut ([(1, if s.alloc.running then 1 else 0)] ++ ((List.finRange 8).map fun k : Fin 8 => (2, s.alloc.banks[k])) ++
          [(1, s.alloc.observed.val), (1, s.alloc.selected.val), (2, roundedUp 2 s.ds s.alloc.settleTimer),
           (2, s.alloc.budget), (2, s.alloc.period), (2, s.alloc.guardBand), (2, s.alloc.overrideBudget),
           (4, s.alloc.imminentThreshold), (1, s.alloc.settleTime), (2, roundedUp 2 s.ds s.alloc.periodTimer),
           (1, (if s.alloc.overrun then 1 else 0) + (if s.alloc.last.isSome then 2 else 0))]) ++
        last ++ bytesOf 1 s.alloc.runOrder.length ++
        (s.alloc.runOrder.map (fun i : Fin 32 => BitVec.ofNat 8 i.val) ++ List.replicate 32 0).take 32 ++ laidOut
        [(1, match s.guard.trip with | .armed _ => 0 | .blanked _ => 1 | .tripped _ => 2),
         (1, if s.guard.lineHigh then 1 else 0),
         (2, roundedUp 2 s.ds (match s.guard.trip with | .armed f => f | .blanked _ => none | .tripped _ => none)),
         (2, roundedUp 2 s.ds (match s.guard.trip with | .blanked e => some e | .armed _ => none | .tripped _ => none)),
         (2, roundedUp 2 s.ds (match s.guard.trip with | .tripped e => some e | .armed _ => none | .blanked _ => none)),
         (2, s.guard.tripCount), (2, s.guard.extensionCount), (1, s.guard.filterTime), (2, s.guard.blankTime),
         (2, s.guard.offTime), (4, s.guard.longestHold),
         (1, match s.guard.hold with | .noHold => 0 | .held _ _ _ _ => 1 | .overridden _ _ => 2), (1, presence),
         (4, start), (4, limit), (4, stop), (4, left)]

/-! ### CLEAR_STATE -/

/-- CLEAR_STATE clears the state of every block, keeps every definition and setting, and clears the Notice Set last
(R21, R45, R61, R77, R99, R125, R139, R158, R171, R191). -/
def Obligations.StateCleared : Prop :=
  ∀ (s : State) (tag : Byte), s.takes tag .clearState → ∃ (u : State) (closed : Nat),
    exec .clearState s = .next (u.replied tag .ok (bytesOf 1 closed)) ∧
    closed = (sumTanks fun i => match s.serviceAt i with
      | some (_, v) => match v.spilling with
        | .event _ => 1
        | .candidate _ => 0
        | .quiet => 0
      | none => 0) ∧
    (∀ i : Fin 32, u.orders[i].active = 0 ∧ u.orders[i].next = 0 ∧ u.orders[i].mark = s.orders[i].mark ∧
      u.orders[i].activeChanged = (s.orders[i].activeChanged || s.orders[i].active != 0)) ∧
    (∀ (i : Fin 32), (s.tanks[i] = none → u.tanks[i] = none) ∧
      ∀ t, s.tanks[i] = some t → ∃ (book : SpillBook) (inhibited : Bool),
        inhibited = formInhibit t.defn.combine s.pins.zinh[t.defn.zone] t.softInhibit ∧
        (t.service = none → book = t.book ∧ u.tanks[i] = some { t with inhibited := inhibited }) ∧
        ∀ v, t.service = some v →
          u.tanks[i] = some { t with
            inhibited := inhibited, book := book
            service := some {
              op := .awaitLevel,
              level := { lastLevel := none, lastReport := none, clamped := false, aboveTable := false, stale := false,
                         volume := none, previous := none, netRate := none, timeToSpill := .absent, imminent := false,
                         staleTimer := none, expiries := 0 },
              supervisor := { stallCounter := 0, goodCounter := 0, snapshot := none, reportMark := false, stall := false,
                              levelLost := false },
              spilling := .quiet } } ∧
          ((∀ e, v.spilling ≠ .event e) → book = t.book) ∧
          ∀ e r, v.spilling = .event e → v.level.lastReport = some r → book = t.book.close .cut r e) ∧
    u.gauges = s.gauges.map (fun g => g.map fun g =>
      { g with storm := .dry, stormDepth := 0, tips := 0, interval := none, tipDepth := none, dryTimer := none }) ∧
    u.catchments = s.catchments.map (fun c => c.map fun c =>
      { defn := c.defn, lastIntensity := 0, lastDepth := 0, gaugeLevel := .noAlert, holdStart := none, floor := none
        effective := .noAlert, acknowledged := false, raised := none, peak := 0 }) ∧
    u.alerts = { s.alerts with rainAlert := false } ∧
    u.alloc = { s.alloc with running := false, periodTimer := none, runOrder := [], overrun := false } ∧
    (s.guard.lineHigh = false → u.guard = { s.guard with hold := .noHold, trip := .armed none }) ∧
    (s.guard.lineHigh = true → 0 < s.guard.filterTime →
      u.guard = { s.guard with hold := .noHold, trip := .armed (some (s.ds + 10 * s.guard.filterTime)) }) ∧
    (s.guard.lineHigh = true → s.guard.filterTime = 0 →
      u.guard = { s.guard with hold := .noHold, trip := .tripped (s.ds + 10 * s.guard.offTime)
                               tripCount := min 65535 (s.guard.tripCount + 1) }) ∧
    u.notices = { s.notices with
      allocation := 0, tanks := Vector.replicate 32 { kinds := 0, detail := none }, catchments := Vector.replicate 8 0
      attn := false } ∧
    u = { s with
      orders := u.orders, tanks := u.tanks, gauges := u.gauges, catchments := u.catchments, alerts := u.alerts
      alloc := u.alloc, guard := u.guard, notices := u.notices }

/-! ### The op state -/

/-- The op state is the first entry of the list of R16 whose condition holds. -/
def Obligations.OpStateTable : Prop :=
  ∀ (d : TankDef) (l : LevelState) (v : Supervisor) (active : Nat),
    (v.levelLost = true ∨ v.stall = true ∧ d.faultReaction = .latch → formOp d l v active = .faulted) ∧
    (¬(v.levelLost = true ∨ v.stall = true ∧ d.faultReaction = .latch) →
      (l.lastLevel = none → formOp d l v active = .awaitLevel) ∧
      ∀ level, l.lastLevel = some level →
        (0 < active → formOp d l v active = .draining) ∧
        (active = 0 → level ≤ d.dryLevel → formOp d l v active = .dry) ∧
        (active = 0 → d.dryLevel < level →
          ((∃ e : Int, l.netRate = some e ∧ 0 < e) → formOp d l v active = .filling) ∧
          ((∀ e : Int, l.netRate = some e → e ≤ 0) → formOp d l v active = .storing)))

/-! ### Laws that every step keeps -/

/-- The op state of every IN_SERVICE tank stays the one that R16 gives. -/
def Obligations.OpStatesStayFormed : Prop :=
  ∀ s t : State, OpStatesFormed s → step s = .next t → OpStatesFormed t

/-- Every order stays within the limits of R127. -/
def Obligations.OrdersStayWithinLimits : Prop :=
  ∀ s t : State, OpStatesFormed s → OrdersWithinLimits s → step s = .next t → OrdersWithinLimits t

/-- While TRIPPED, every tank whose mode in force is AUTO keeps both orders 0 (R133). -/
def Obligations.TripLawKept : Prop :=
  ∀ s t : State, OpStatesFormed s → OrdersWithinLimits s → AutoMarksInForce s → TripHoldsOrders s → step s = .next t →
    TripHoldsOrders t ∧ AutoMarksInForce t

/-- Every tank of the run order list stays IN_SERVICE, in AUTO in force, not FAULTED and not inhibited (R117). -/
def Obligations.RunListStaysLawful : Prop :=
  ∀ s t : State, OpStatesFormed s → RunListLawful s → step s = .next t → RunListLawful t

/-- In both buffers the automatic orders stay within B less the manual orders (R120, R121). -/
def Obligations.OrdersStayWithinBudget : Prop :=
  ∀ s t : State, StoppedHoldsNothing s → OrdersWithinBudget s → step s = .next t →
    OrdersWithinBudget t ∧ StoppedHoldsNothing t

/-- The storm fields, the alert levels and the references between records keep their laws (R62, R74, R86, R89, R95), and the counters,
levels, net rates and stall counters their bounds (R24, R33, R46, R50, R159, R173). -/
def Obligations.RainLawsAndBoundsKept : Prop :=
  ∀ s t : State, step s = .next t →
    (StormsLawful s → StormsLawful t) ∧ (AlertsLawful s → AlertsLawful t) ∧ (NamesDefined s → NamesDefined t) ∧
      (CountersLawful s → CountersLawful t) ∧ (LevelsLawful s → LevelsLawful t)

/-- ATTN and RAIN_ALERT follow what they stand for, each input line is held as it stands, B is the budget of the bank in force, a hold's
end stays within its limit, and the period and evaluation timers run exactly when they should
(R13, R82, R94, R101, R107, R140, R149, R185). -/
def Obligations.LinesAndTimersFollow : Prop :=
  ∀ s t : State, step s = .next t →
    (LinesFollow s → LinesFollow t) ∧ (LinesTaken s → LinesTaken t) ∧ (SelectionLawful s → SelectionLawful t) ∧
      (HoldLawful s → HoldLawful t) ∧ (TimersLawful s → TimersLawful t)

/-- Every setting and every time in a definition stays in its range (R1, R63, R184), and no running timer's expiry falls behind the count,
so that each is taken at the very count its timer gives and at no later one (R189). -/
def Obligations.ExpiriesComeInTime : Prop :=
  ∀ s t : State, step s = .next t → (SettingsInRange s → SettingsInRange t) ∧
    (SettingsInRange s → TimersLawful s → TimersAhead s → TimersAhead t)

/-- All these laws hold right after reset. -/
def Obligations.LawsHoldAtReset : Prop :=
  OpStatesFormed State.reset ∧ OrdersWithinLimits State.reset ∧ AutoMarksInForce State.reset ∧
    TripHoldsOrders State.reset ∧ RunListLawful State.reset ∧ OrdersWithinBudget State.reset ∧
    StoppedHoldsNothing State.reset ∧ StormsLawful State.reset ∧ AlertsLawful State.reset ∧ NamesDefined State.reset ∧
    CountersLawful State.reset ∧ LevelsLawful State.reset ∧ LinesFollow State.reset ∧ LinesTaken State.reset ∧
    SelectionLawful State.reset ∧ HoldLawful State.reset ∧ TimersLawful State.reset ∧
    SettingsInRange State.reset ∧ TimersAhead State.reset

end
end

