-- ==== Sys2Proof/Laws/Requests.lean ====
section
/-! SUPPORT. What a request does when it is taken, one lemma per request: its reply and the state its owner leaves. -/

namespace Sys2Proof.Machine

/-- The state with an owner's answer stored under a tag. -/
def Answer.stored (tag : Byte) (a : Answer) : State :=
  a.state.replied tag a.status a.payload

/-- A request in hand gets its owner's answer, under its tag (R181). -/
theorem serve_taken {c : Instr} {owner : State → Answer} {s : State} {tag : Byte} (h : s.takes tag c) :
    serve c owner s = (owner s).stored tag := by
  simp [serve, h.1, h.2, Answer.stored, State.replied]

/-- A request that is not in hand is no event of the part (log 3). -/
theorem serve_not_taken {c : Instr} {owner : State → Answer} {s : State} (h : ∀ tag, ¬s.takes tag c) :
    serve c owner s = s := by
  unfold serve
  split
  · rfl
  · next hr =>
    split
    · next tag inHand hp =>
      split
      · next hc => exact absurd ⟨by simpa using hr, by rw [hp, hc]⟩ (h tag)
      · rfl
    · rfl
    · rfl
    · rfl

/-- An event of the released part has its effect. -/
theorem whileReleased_released {event : State → State} {s : State} (h : s.resetAsserted = false) :
    whileReleased event s = event s := by
  simp [whileReleased, h]

/-- An event of a part in reset has none (log 8). -/
theorem whileReleased_asserted {event : State → State} {s : State} (h : s.resetAsserted = true) :
    whileReleased event s = s := by
  simp [whileReleased, h]

/-- A refusal stored: nothing but the reply changes. -/
@[simp] theorem refuse_stored (tag : Byte) (status : Status) (s : State) :
    (refuse status s).stored tag = s.replied tag status [] := rfl

/-- An accepted request stored. -/
@[simp] theorem accept_stored (tag : Byte) (payload : List Byte) (s : State) :
    (accept payload s).stored tag = s.replied tag .ok payload := rfl

/-- An index in range names the record of that number. -/
theorem indexIn_val {n : Nat} (i : Fin n) : indexIn n i.val = some i := by
  simp [indexIn]

/-- An index out of range names none. -/
theorem indexIn_out {n i : Nat} (h : n ≤ i) : indexIn n i = none := by
  simp [indexIn, h]

variable {s : State} {tag : Byte}

theorem exec_setLimits_taken (count : Nat) (entries : List Byte) (h : s.takes tag (.setLimits count entries)) :
    exec (.setLimits count entries) s = .next ((answerSetLimits count entries s).stored tag) :=
  congrArg Host.Outcome.next (serve_taken h)

theorem exec_setBank_taken (bank budget : Nat) (h : s.takes tag (.setBank bank budget)) :
    exec (.setBank bank budget) s = .next ((answerSetBank bank budget s).stored tag) :=
  congrArg Host.Outcome.next (serve_taken h)

theorem exec_setNoticeMask_taken (t c a : Nat) (h : s.takes tag (.setNoticeMask t c a)) :
    exec (.setNoticeMask t c a) s = .next ((answerSetNoticeMask t c a s).stored tag) :=
  congrArg Host.Outcome.next (serve_taken h)

theorem exec_defineTank_taken (tank : Nat) (f : TankFields) (h : s.takes tag (.defineTank tank f)) :
    exec (.defineTank tank f) s = .next ((answerDefineTank tank f s).stored tag) :=
  congrArg Host.Outcome.next (serve_taken h)

theorem exec_loadStageTable_taken (tank count : Nat) (points : List Byte) (h : s.takes tag (.loadStageTable tank count points)) :
    exec (.loadStageTable tank count points) s = .next ((answerLoadStageTable tank count points s).stored tag) :=
  congrArg Host.Outcome.next (serve_taken h)

theorem exec_loadRatingTable_taken (tank count : Nat) (points : List Byte) (h : s.takes tag (.loadRatingTable tank count points)) :
    exec (.loadRatingTable tank count points) s = .next ((answerLoadRatingTable tank count points s).stored tag) :=
  congrArg Host.Outcome.next (serve_taken h)

theorem exec_placeInService_taken (tank : Nat) (h : s.takes tag (.placeInService tank)) :
    exec (.placeInService tank) s = .next ((answerPlaceInService tank s).stored tag) :=
  congrArg Host.Outcome.next (serve_taken h)

theorem exec_takeOffline_taken (tank : Nat) (h : s.takes tag (.takeOffline tank)) :
    exec (.takeOffline tank) s = .next ((answerTakeOffline tank s).stored tag) :=
  congrArg Host.Outcome.next (serve_taken h)

theorem exec_retireTank_taken (tank : Nat) (h : s.takes tag (.retireTank tank)) :
    exec (.retireTank tank) s = .next ((answerRetireTank tank s).stored tag) :=
  congrArg Host.Outcome.next (serve_taken h)

theorem exec_defineGauge_taken (gauge depth debounce dryGap : Nat) (h : s.takes tag (.defineGauge gauge depth debounce dryGap)) :
    exec (.defineGauge gauge depth debounce dryGap) s = .next ((answerDefineGauge gauge depth debounce dryGap s).stored tag) :=
  congrArg Host.Outcome.next (serve_taken h)

theorem exec_retireGauge_taken (gauge : Nat) (h : s.takes tag (.retireGauge gauge)) :
    exec (.retireGauge gauge) s = .next ((answerRetireGauge gauge s).stored tag) :=
  congrArg Host.Outcome.next (serve_taken h)

theorem exec_defineCatchment_taken (catchment count : Nat) (body : List Byte) (h : s.takes tag (.defineCatchment catchment count body)) :
    exec (.defineCatchment catchment count body) s = .next ((answerDefineCatchment catchment count body s).stored tag) :=
  congrArg Host.Outcome.next (serve_taken h)

theorem exec_retireCatchment_taken (catchment : Nat) (h : s.takes tag (.retireCatchment catchment)) :
    exec (.retireCatchment catchment) s = .next ((answerRetireCatchment catchment s).stored tag) :=
  congrArg Host.Outcome.next (serve_taken h)

theorem exec_reportLevel_taken (tank level age : Nat) (h : s.takes tag (.reportLevel tank level age)) :
    exec (.reportLevel tank level age) s = .next ((answerReportLevel tank level age s).stored tag) :=
  congrArg Host.Outcome.next (serve_taken h)

theorem exec_setMode_taken (tank mode value : Nat) (h : s.takes tag (.setMode tank mode value)) :
    exec (.setMode tank mode value) s = .next ((answerSetMode tank mode value s).stored tag) :=
  congrArg Host.Outcome.next (serve_taken h)

theorem exec_setInhibit_taken (tank flag : Nat) (h : s.takes tag (.setInhibit tank flag)) :
    exec (.setInhibit tank flag) s = .next ((answerSetInhibit tank flag s).stored tag) :=
  congrArg Host.Outcome.next (serve_taken h)

theorem exec_startAllocation_taken (h : s.takes tag .startAllocation) :
    exec .startAllocation s = .next ((answerStartAllocation s).stored tag) :=
  congrArg Host.Outcome.next (serve_taken h)

theorem exec_stopAllocation_taken (h : s.takes tag .stopAllocation) :
    exec .stopAllocation s = .next ((answerStopAllocation s).stored tag) :=
  congrArg Host.Outcome.next (serve_taken h)

theorem exec_hold_taken (duration : Nat) (h : s.takes tag (.hold duration)) :
    exec (.hold duration) s = .next ((answerHold duration s).stored tag) :=
  congrArg Host.Outcome.next (serve_taken h)

theorem exec_release_taken (h : s.takes tag .release) :
    exec .release s = .next ((answerRelease s).stored tag) :=
  congrArg Host.Outcome.next (serve_taken h)

theorem exec_resume_taken (h : s.takes tag .resume) :
    exec .resume s = .next ((answerResume s).stored tag) :=
  congrArg Host.Outcome.next (serve_taken h)

theorem exec_clearFault_taken (tank : Nat) (h : s.takes tag (.clearFault tank)) :
    exec (.clearFault tank) s = .next ((answerClearFault tank s).stored tag) :=
  congrArg Host.Outcome.next (serve_taken h)

theorem exec_ackAlert_taken (catchment : Nat) (h : s.takes tag (.ackAlert catchment)) :
    exec (.ackAlert catchment) s = .next ((answerAckAlert catchment s).stored tag) :=
  congrArg Host.Outcome.next (serve_taken h)

theorem exec_setForecast_taken (catchment level duration : Nat) (h : s.takes tag (.setForecast catchment level duration)) :
    exec (.setForecast catchment level duration) s = .next ((answerSetForecast catchment level duration s).stored tag) :=
  congrArg Host.Outcome.next (serve_taken h)

theorem exec_resetCounts_taken (tank : Nat) (h : s.takes tag (.resetCounts tank)) :
    exec (.resetCounts tank) s = .next ((answerResetCounts tank s).stored tag) :=
  congrArg Host.Outcome.next (serve_taken h)

theorem exec_resetCountsAll_taken (h : s.takes tag .resetCountsAll) :
    exec .resetCountsAll s = .next ((answerResetCountsAll s).stored tag) :=
  congrArg Host.Outcome.next (serve_taken h)

theorem exec_clearState_taken (h : s.takes tag .clearState) :
    exec .clearState s = .next ((answerClearState s).stored tag) :=
  congrArg Host.Outcome.next (serve_taken h)

theorem exec_readTank_taken (tank : Nat) (h : s.takes tag (.readTank tank)) :
    exec (.readTank tank) s = .next ((answerReadTank tank s).stored tag) :=
  congrArg Host.Outcome.next (serve_taken h)

theorem exec_readOrders_taken (h : s.takes tag .readOrders) :
    exec .readOrders s = .next ((answerReadOrders s).stored tag) :=
  congrArg Host.Outcome.next (serve_taken h)

theorem exec_readSpill_taken (tank : Nat) (h : s.takes tag (.readSpill tank)) :
    exec (.readSpill tank) s = .next ((answerReadSpill tank s).stored tag) :=
  congrArg Host.Outcome.next (serve_taken h)

theorem exec_readGauge_taken (gauge : Nat) (h : s.takes tag (.readGauge gauge)) :
    exec (.readGauge gauge) s = .next ((answerReadGauge gauge s).stored tag) :=
  congrArg Host.Outcome.next (serve_taken h)

theorem exec_readCatchment_taken (catchment : Nat) (h : s.takes tag (.readCatchment catchment)) :
    exec (.readCatchment catchment) s = .next ((answerReadCatchment catchment s).stored tag) :=
  congrArg Host.Outcome.next (serve_taken h)

theorem exec_readAllocation_taken (h : s.takes tag .readAllocation) :
    exec .readAllocation s = .next ((answerReadAllocation s).stored tag) :=
  congrArg Host.Outcome.next (serve_taken h)

theorem exec_readNotices_taken (h : s.takes tag .readNotices) :
    exec .readNotices s = .next ((answerReadNotices s).stored tag) :=
  congrArg Host.Outcome.next (serve_taken h)

theorem exec_readTime_taken (h : s.takes tag .readTime) :
    exec .readTime s = .next ((answerReadTime s).stored tag) :=
  congrArg Host.Outcome.next (serve_taken h)

theorem exec_identify_taken (h : s.takes tag .identify) :
    exec .identify s = .next ((answerIdentify s).stored tag) :=
  congrArg Host.Outcome.next (serve_taken h)

end Sys2Proof.Machine
end

