-- ==== Sys2Proof/Laws/State.lean ====
section
/-! SUPPORT. One lemma per field per update of State: what each named update leaves unchanged, and, where it is one write, the
value it writes. -/

namespace Sys2Proof.Machine

variable (s : State)

/-! ### setTank -/

@[simp] theorem State.setTank_pending (i : Fin 32) (t : Option Tank) : (s.setTank i t).pending = s.pending := by simp [State.setTank]
@[simp] theorem State.setTank_resetAsserted (i : Fin 32) (t : Option Tank) : (s.setTank i t).resetAsserted = s.resetAsserted := by simp [State.setTank]
@[simp] theorem State.setTank_pins (i : Fin 32) (t : Option Tank) : (s.setTank i t).pins = s.pins := by simp [State.setTank]
@[simp] theorem State.setTank_ds (i : Fin 32) (t : Option Tank) : (s.setTank i t).ds = s.ds := by simp [State.setTank]
@[simp] theorem State.setTank_port (i : Fin 32) (t : Option Tank) : (s.setTank i t).port = s.port := by simp [State.setTank]
@[simp] theorem State.setTank_overrun (i : Fin 32) (t : Option Tank) : (s.setTank i t).overrun = s.overrun := by simp [State.setTank]
@[simp] theorem State.setTank_transaction (i : Fin 32) (t : Option Tank) : (s.setTank i t).transaction = s.transaction := by simp [State.setTank]
@[simp] theorem State.setTank_shiftedOut (i : Fin 32) (t : Option Tank) : (s.setTank i t).shiftedOut = s.shiftedOut := by simp [State.setTank]
@[simp] theorem State.setTank_freeCount (i : Fin 32) (t : Option Tank) : (s.setTank i t).freeCount = s.freeCount := by simp [State.setTank]
@[simp] theorem State.setTank_orders (i : Fin 32) (t : Option Tank) : (s.setTank i t).orders = s.orders := by simp [State.setTank]
@[simp] theorem State.setTank_gauges (i : Fin 32) (t : Option Tank) : (s.setTank i t).gauges = s.gauges := by simp [State.setTank]
@[simp] theorem State.setTank_catchments (i : Fin 32) (t : Option Tank) : (s.setTank i t).catchments = s.catchments := by simp [State.setTank]
@[simp] theorem State.setTank_alerts (i : Fin 32) (t : Option Tank) : (s.setTank i t).alerts = s.alerts := by simp [State.setTank]
@[simp] theorem State.setTank_alloc (i : Fin 32) (t : Option Tank) : (s.setTank i t).alloc = s.alloc := by simp [State.setTank]
@[simp] theorem State.setTank_guard (i : Fin 32) (t : Option Tank) : (s.setTank i t).guard = s.guard := by simp [State.setTank]
@[simp] theorem State.setTank_windowHours (i : Fin 32) (t : Option Tank) : (s.setTank i t).windowHours = s.windowHours := by simp [State.setTank]
@[simp] theorem State.setTank_notices (i : Fin 32) (t : Option Tank) : (s.setTank i t).notices = s.notices := by simp [State.setTank]

/-! ### mapTanks -/

@[simp] theorem State.mapTanks_pending (f : Fin 32 → Tank → Tank) : (s.mapTanks f).pending = s.pending := by simp [State.mapTanks]
@[simp] theorem State.mapTanks_resetAsserted (f : Fin 32 → Tank → Tank) : (s.mapTanks f).resetAsserted = s.resetAsserted := by simp [State.mapTanks]
@[simp] theorem State.mapTanks_pins (f : Fin 32 → Tank → Tank) : (s.mapTanks f).pins = s.pins := by simp [State.mapTanks]
@[simp] theorem State.mapTanks_ds (f : Fin 32 → Tank → Tank) : (s.mapTanks f).ds = s.ds := by simp [State.mapTanks]
@[simp] theorem State.mapTanks_port (f : Fin 32 → Tank → Tank) : (s.mapTanks f).port = s.port := by simp [State.mapTanks]
@[simp] theorem State.mapTanks_overrun (f : Fin 32 → Tank → Tank) : (s.mapTanks f).overrun = s.overrun := by simp [State.mapTanks]
@[simp] theorem State.mapTanks_transaction (f : Fin 32 → Tank → Tank) : (s.mapTanks f).transaction = s.transaction := by simp [State.mapTanks]
@[simp] theorem State.mapTanks_shiftedOut (f : Fin 32 → Tank → Tank) : (s.mapTanks f).shiftedOut = s.shiftedOut := by simp [State.mapTanks]
@[simp] theorem State.mapTanks_freeCount (f : Fin 32 → Tank → Tank) : (s.mapTanks f).freeCount = s.freeCount := by simp [State.mapTanks]
@[simp] theorem State.mapTanks_orders (f : Fin 32 → Tank → Tank) : (s.mapTanks f).orders = s.orders := by simp [State.mapTanks]
@[simp] theorem State.mapTanks_gauges (f : Fin 32 → Tank → Tank) : (s.mapTanks f).gauges = s.gauges := by simp [State.mapTanks]
@[simp] theorem State.mapTanks_catchments (f : Fin 32 → Tank → Tank) : (s.mapTanks f).catchments = s.catchments := by simp [State.mapTanks]
@[simp] theorem State.mapTanks_alerts (f : Fin 32 → Tank → Tank) : (s.mapTanks f).alerts = s.alerts := by simp [State.mapTanks]
@[simp] theorem State.mapTanks_alloc (f : Fin 32 → Tank → Tank) : (s.mapTanks f).alloc = s.alloc := by simp [State.mapTanks]
@[simp] theorem State.mapTanks_guard (f : Fin 32 → Tank → Tank) : (s.mapTanks f).guard = s.guard := by simp [State.mapTanks]
@[simp] theorem State.mapTanks_windowHours (f : Fin 32 → Tank → Tank) : (s.mapTanks f).windowHours = s.windowHours := by simp [State.mapTanks]
@[simp] theorem State.mapTanks_notices (f : Fin 32 → Tank → Tank) : (s.mapTanks f).notices = s.notices := by simp [State.mapTanks]

/-! ### postTanks -/

@[simp] theorem State.postTanks_pending (p : Fin 32 → List TankPost) : (s.postTanks p).pending = s.pending := by simp [State.postTanks]
@[simp] theorem State.postTanks_resetAsserted (p : Fin 32 → List TankPost) : (s.postTanks p).resetAsserted = s.resetAsserted := by simp [State.postTanks]
@[simp] theorem State.postTanks_pins (p : Fin 32 → List TankPost) : (s.postTanks p).pins = s.pins := by simp [State.postTanks]
@[simp] theorem State.postTanks_ds (p : Fin 32 → List TankPost) : (s.postTanks p).ds = s.ds := by simp [State.postTanks]
@[simp] theorem State.postTanks_port (p : Fin 32 → List TankPost) : (s.postTanks p).port = s.port := by simp [State.postTanks]
@[simp] theorem State.postTanks_overrun (p : Fin 32 → List TankPost) : (s.postTanks p).overrun = s.overrun := by simp [State.postTanks]
@[simp] theorem State.postTanks_transaction (p : Fin 32 → List TankPost) : (s.postTanks p).transaction = s.transaction := by simp [State.postTanks]
@[simp] theorem State.postTanks_shiftedOut (p : Fin 32 → List TankPost) : (s.postTanks p).shiftedOut = s.shiftedOut := by simp [State.postTanks]
@[simp] theorem State.postTanks_freeCount (p : Fin 32 → List TankPost) : (s.postTanks p).freeCount = s.freeCount := by simp [State.postTanks]
@[simp] theorem State.postTanks_tanks (p : Fin 32 → List TankPost) : (s.postTanks p).tanks = s.tanks := by simp [State.postTanks]
@[simp] theorem State.postTanks_orders (p : Fin 32 → List TankPost) : (s.postTanks p).orders = s.orders := by simp [State.postTanks]
@[simp] theorem State.postTanks_gauges (p : Fin 32 → List TankPost) : (s.postTanks p).gauges = s.gauges := by simp [State.postTanks]
@[simp] theorem State.postTanks_catchments (p : Fin 32 → List TankPost) : (s.postTanks p).catchments = s.catchments := by simp [State.postTanks]
@[simp] theorem State.postTanks_alerts (p : Fin 32 → List TankPost) : (s.postTanks p).alerts = s.alerts := by simp [State.postTanks]
@[simp] theorem State.postTanks_alloc (p : Fin 32 → List TankPost) : (s.postTanks p).alloc = s.alloc := by simp [State.postTanks]
@[simp] theorem State.postTanks_guard (p : Fin 32 → List TankPost) : (s.postTanks p).guard = s.guard := by simp [State.postTanks]
@[simp] theorem State.postTanks_windowHours (p : Fin 32 → List TankPost) : (s.postTanks p).windowHours = s.windowHours := by simp [State.postTanks]

/-! ### postTank -/

@[simp] theorem State.postTank_pending (i : Fin 32) (p : List TankPost) : (s.postTank i p).pending = s.pending := by simp [State.postTank]
@[simp] theorem State.postTank_resetAsserted (i : Fin 32) (p : List TankPost) : (s.postTank i p).resetAsserted = s.resetAsserted := by simp [State.postTank]
@[simp] theorem State.postTank_pins (i : Fin 32) (p : List TankPost) : (s.postTank i p).pins = s.pins := by simp [State.postTank]
@[simp] theorem State.postTank_ds (i : Fin 32) (p : List TankPost) : (s.postTank i p).ds = s.ds := by simp [State.postTank]
@[simp] theorem State.postTank_port (i : Fin 32) (p : List TankPost) : (s.postTank i p).port = s.port := by simp [State.postTank]
@[simp] theorem State.postTank_overrun (i : Fin 32) (p : List TankPost) : (s.postTank i p).overrun = s.overrun := by simp [State.postTank]
@[simp] theorem State.postTank_transaction (i : Fin 32) (p : List TankPost) : (s.postTank i p).transaction = s.transaction := by simp [State.postTank]
@[simp] theorem State.postTank_shiftedOut (i : Fin 32) (p : List TankPost) : (s.postTank i p).shiftedOut = s.shiftedOut := by simp [State.postTank]
@[simp] theorem State.postTank_freeCount (i : Fin 32) (p : List TankPost) : (s.postTank i p).freeCount = s.freeCount := by simp [State.postTank]
@[simp] theorem State.postTank_tanks (i : Fin 32) (p : List TankPost) : (s.postTank i p).tanks = s.tanks := by simp [State.postTank]
@[simp] theorem State.postTank_orders (i : Fin 32) (p : List TankPost) : (s.postTank i p).orders = s.orders := by simp [State.postTank]
@[simp] theorem State.postTank_gauges (i : Fin 32) (p : List TankPost) : (s.postTank i p).gauges = s.gauges := by simp [State.postTank]
@[simp] theorem State.postTank_catchments (i : Fin 32) (p : List TankPost) : (s.postTank i p).catchments = s.catchments := by simp [State.postTank]
@[simp] theorem State.postTank_alerts (i : Fin 32) (p : List TankPost) : (s.postTank i p).alerts = s.alerts := by simp [State.postTank]
@[simp] theorem State.postTank_alloc (i : Fin 32) (p : List TankPost) : (s.postTank i p).alloc = s.alloc := by simp [State.postTank]
@[simp] theorem State.postTank_guard (i : Fin 32) (p : List TankPost) : (s.postTank i p).guard = s.guard := by simp [State.postTank]
@[simp] theorem State.postTank_windowHours (i : Fin 32) (p : List TankPost) : (s.postTank i p).windowHours = s.windowHours := by simp [State.postTank]

/-! ### postCatchments -/

@[simp] theorem State.postCatchments_pending (p : Fin 8 → List CatchmentPost) : (s.postCatchments p).pending = s.pending := by simp [State.postCatchments]
@[simp] theorem State.postCatchments_resetAsserted (p : Fin 8 → List CatchmentPost) : (s.postCatchments p).resetAsserted = s.resetAsserted := by simp [State.postCatchments]
@[simp] theorem State.postCatchments_pins (p : Fin 8 → List CatchmentPost) : (s.postCatchments p).pins = s.pins := by simp [State.postCatchments]
@[simp] theorem State.postCatchments_ds (p : Fin 8 → List CatchmentPost) : (s.postCatchments p).ds = s.ds := by simp [State.postCatchments]
@[simp] theorem State.postCatchments_port (p : Fin 8 → List CatchmentPost) : (s.postCatchments p).port = s.port := by simp [State.postCatchments]
@[simp] theorem State.postCatchments_overrun (p : Fin 8 → List CatchmentPost) : (s.postCatchments p).overrun = s.overrun := by simp [State.postCatchments]
@[simp] theorem State.postCatchments_transaction (p : Fin 8 → List CatchmentPost) : (s.postCatchments p).transaction = s.transaction := by simp [State.postCatchments]
@[simp] theorem State.postCatchments_shiftedOut (p : Fin 8 → List CatchmentPost) : (s.postCatchments p).shiftedOut = s.shiftedOut := by simp [State.postCatchments]
@[simp] theorem State.postCatchments_freeCount (p : Fin 8 → List CatchmentPost) : (s.postCatchments p).freeCount = s.freeCount := by simp [State.postCatchments]
@[simp] theorem State.postCatchments_tanks (p : Fin 8 → List CatchmentPost) : (s.postCatchments p).tanks = s.tanks := by simp [State.postCatchments]
@[simp] theorem State.postCatchments_orders (p : Fin 8 → List CatchmentPost) : (s.postCatchments p).orders = s.orders := by simp [State.postCatchments]
@[simp] theorem State.postCatchments_gauges (p : Fin 8 → List CatchmentPost) : (s.postCatchments p).gauges = s.gauges := by simp [State.postCatchments]
@[simp] theorem State.postCatchments_catchments (p : Fin 8 → List CatchmentPost) : (s.postCatchments p).catchments = s.catchments := by simp [State.postCatchments]
@[simp] theorem State.postCatchments_alerts (p : Fin 8 → List CatchmentPost) : (s.postCatchments p).alerts = s.alerts := by simp [State.postCatchments]
@[simp] theorem State.postCatchments_alloc (p : Fin 8 → List CatchmentPost) : (s.postCatchments p).alloc = s.alloc := by simp [State.postCatchments]
@[simp] theorem State.postCatchments_guard (p : Fin 8 → List CatchmentPost) : (s.postCatchments p).guard = s.guard := by simp [State.postCatchments]
@[simp] theorem State.postCatchments_windowHours (p : Fin 8 → List CatchmentPost) : (s.postCatchments p).windowHours = s.windowHours := by simp [State.postCatchments]

/-! ### postAllocation -/

@[simp] theorem State.postAllocation_pending (p : AllocationPost) : (s.postAllocation p).pending = s.pending := by simp [State.postAllocation]
@[simp] theorem State.postAllocation_resetAsserted (p : AllocationPost) : (s.postAllocation p).resetAsserted = s.resetAsserted := by simp [State.postAllocation]
@[simp] theorem State.postAllocation_pins (p : AllocationPost) : (s.postAllocation p).pins = s.pins := by simp [State.postAllocation]
@[simp] theorem State.postAllocation_ds (p : AllocationPost) : (s.postAllocation p).ds = s.ds := by simp [State.postAllocation]
@[simp] theorem State.postAllocation_port (p : AllocationPost) : (s.postAllocation p).port = s.port := by simp [State.postAllocation]
@[simp] theorem State.postAllocation_overrun (p : AllocationPost) : (s.postAllocation p).overrun = s.overrun := by simp [State.postAllocation]
@[simp] theorem State.postAllocation_transaction (p : AllocationPost) : (s.postAllocation p).transaction = s.transaction := by simp [State.postAllocation]
@[simp] theorem State.postAllocation_shiftedOut (p : AllocationPost) : (s.postAllocation p).shiftedOut = s.shiftedOut := by simp [State.postAllocation]
@[simp] theorem State.postAllocation_freeCount (p : AllocationPost) : (s.postAllocation p).freeCount = s.freeCount := by simp [State.postAllocation]
@[simp] theorem State.postAllocation_tanks (p : AllocationPost) : (s.postAllocation p).tanks = s.tanks := by simp [State.postAllocation]
@[simp] theorem State.postAllocation_orders (p : AllocationPost) : (s.postAllocation p).orders = s.orders := by simp [State.postAllocation]
@[simp] theorem State.postAllocation_gauges (p : AllocationPost) : (s.postAllocation p).gauges = s.gauges := by simp [State.postAllocation]
@[simp] theorem State.postAllocation_catchments (p : AllocationPost) : (s.postAllocation p).catchments = s.catchments := by simp [State.postAllocation]
@[simp] theorem State.postAllocation_alerts (p : AllocationPost) : (s.postAllocation p).alerts = s.alerts := by simp [State.postAllocation]
@[simp] theorem State.postAllocation_alloc (p : AllocationPost) : (s.postAllocation p).alloc = s.alloc := by simp [State.postAllocation]
@[simp] theorem State.postAllocation_guard (p : AllocationPost) : (s.postAllocation p).guard = s.guard := by simp [State.postAllocation]
@[simp] theorem State.postAllocation_windowHours (p : AllocationPost) : (s.postAllocation p).windowHours = s.windowHours := by simp [State.postAllocation]

/-! ### writeActive -/

@[simp] theorem State.writeActive_pending (new : Fin 32 → Nat) : (s.writeActive new).pending = s.pending := by simp [State.writeActive]
@[simp] theorem State.writeActive_resetAsserted (new : Fin 32 → Nat) : (s.writeActive new).resetAsserted = s.resetAsserted := by simp [State.writeActive]
@[simp] theorem State.writeActive_pins (new : Fin 32 → Nat) : (s.writeActive new).pins = s.pins := by simp [State.writeActive]
@[simp] theorem State.writeActive_ds (new : Fin 32 → Nat) : (s.writeActive new).ds = s.ds := by simp [State.writeActive]
@[simp] theorem State.writeActive_port (new : Fin 32 → Nat) : (s.writeActive new).port = s.port := by simp [State.writeActive]
@[simp] theorem State.writeActive_overrun (new : Fin 32 → Nat) : (s.writeActive new).overrun = s.overrun := by simp [State.writeActive]
@[simp] theorem State.writeActive_transaction (new : Fin 32 → Nat) : (s.writeActive new).transaction = s.transaction := by simp [State.writeActive]
@[simp] theorem State.writeActive_shiftedOut (new : Fin 32 → Nat) : (s.writeActive new).shiftedOut = s.shiftedOut := by simp [State.writeActive]
@[simp] theorem State.writeActive_freeCount (new : Fin 32 → Nat) : (s.writeActive new).freeCount = s.freeCount := by simp [State.writeActive]
@[simp] theorem State.writeActive_gauges (new : Fin 32 → Nat) : (s.writeActive new).gauges = s.gauges := by simp [State.writeActive]
@[simp] theorem State.writeActive_catchments (new : Fin 32 → Nat) : (s.writeActive new).catchments = s.catchments := by simp [State.writeActive]
@[simp] theorem State.writeActive_alerts (new : Fin 32 → Nat) : (s.writeActive new).alerts = s.alerts := by simp [State.writeActive]
@[simp] theorem State.writeActive_alloc (new : Fin 32 → Nat) : (s.writeActive new).alloc = s.alloc := by simp [State.writeActive]
@[simp] theorem State.writeActive_guard (new : Fin 32 → Nat) : (s.writeActive new).guard = s.guard := by simp [State.writeActive]
@[simp] theorem State.writeActive_windowHours (new : Fin 32 → Nat) : (s.writeActive new).windowHours = s.windowHours := by simp [State.writeActive]
@[simp] theorem State.writeActive_notices (new : Fin 32 → Nat) : (s.writeActive new).notices = s.notices := by simp [State.writeActive]

/-! ### writeNext -/

@[simp] theorem State.writeNext_pending (new : Fin 32 → Nat) : (s.writeNext new).pending = s.pending := by simp [State.writeNext]
@[simp] theorem State.writeNext_resetAsserted (new : Fin 32 → Nat) : (s.writeNext new).resetAsserted = s.resetAsserted := by simp [State.writeNext]
@[simp] theorem State.writeNext_pins (new : Fin 32 → Nat) : (s.writeNext new).pins = s.pins := by simp [State.writeNext]
@[simp] theorem State.writeNext_ds (new : Fin 32 → Nat) : (s.writeNext new).ds = s.ds := by simp [State.writeNext]
@[simp] theorem State.writeNext_port (new : Fin 32 → Nat) : (s.writeNext new).port = s.port := by simp [State.writeNext]
@[simp] theorem State.writeNext_overrun (new : Fin 32 → Nat) : (s.writeNext new).overrun = s.overrun := by simp [State.writeNext]
@[simp] theorem State.writeNext_transaction (new : Fin 32 → Nat) : (s.writeNext new).transaction = s.transaction := by simp [State.writeNext]
@[simp] theorem State.writeNext_shiftedOut (new : Fin 32 → Nat) : (s.writeNext new).shiftedOut = s.shiftedOut := by simp [State.writeNext]
@[simp] theorem State.writeNext_freeCount (new : Fin 32 → Nat) : (s.writeNext new).freeCount = s.freeCount := by simp [State.writeNext]
@[simp] theorem State.writeNext_tanks (new : Fin 32 → Nat) : (s.writeNext new).tanks = s.tanks := by simp [State.writeNext]
@[simp] theorem State.writeNext_gauges (new : Fin 32 → Nat) : (s.writeNext new).gauges = s.gauges := by simp [State.writeNext]
@[simp] theorem State.writeNext_catchments (new : Fin 32 → Nat) : (s.writeNext new).catchments = s.catchments := by simp [State.writeNext]
@[simp] theorem State.writeNext_alerts (new : Fin 32 → Nat) : (s.writeNext new).alerts = s.alerts := by simp [State.writeNext]
@[simp] theorem State.writeNext_alloc (new : Fin 32 → Nat) : (s.writeNext new).alloc = s.alloc := by simp [State.writeNext]
@[simp] theorem State.writeNext_guard (new : Fin 32 → Nat) : (s.writeNext new).guard = s.guard := by simp [State.writeNext]
@[simp] theorem State.writeNext_windowHours (new : Fin 32 → Nat) : (s.writeNext new).windowHours = s.windowHours := by simp [State.writeNext]
@[simp] theorem State.writeNext_notices (new : Fin 32 → Nat) : (s.writeNext new).notices = s.notices := by simp [State.writeNext]

/-! ### zeroOrders -/

@[simp] theorem State.zeroOrders_pending (p : Fin 32 → Bool) : (s.zeroOrders p).pending = s.pending := by simp [State.zeroOrders]
@[simp] theorem State.zeroOrders_resetAsserted (p : Fin 32 → Bool) : (s.zeroOrders p).resetAsserted = s.resetAsserted := by simp [State.zeroOrders]
@[simp] theorem State.zeroOrders_pins (p : Fin 32 → Bool) : (s.zeroOrders p).pins = s.pins := by simp [State.zeroOrders]
@[simp] theorem State.zeroOrders_ds (p : Fin 32 → Bool) : (s.zeroOrders p).ds = s.ds := by simp [State.zeroOrders]
@[simp] theorem State.zeroOrders_port (p : Fin 32 → Bool) : (s.zeroOrders p).port = s.port := by simp [State.zeroOrders]
@[simp] theorem State.zeroOrders_overrun (p : Fin 32 → Bool) : (s.zeroOrders p).overrun = s.overrun := by simp [State.zeroOrders]
@[simp] theorem State.zeroOrders_transaction (p : Fin 32 → Bool) : (s.zeroOrders p).transaction = s.transaction := by simp [State.zeroOrders]
@[simp] theorem State.zeroOrders_shiftedOut (p : Fin 32 → Bool) : (s.zeroOrders p).shiftedOut = s.shiftedOut := by simp [State.zeroOrders]
@[simp] theorem State.zeroOrders_freeCount (p : Fin 32 → Bool) : (s.zeroOrders p).freeCount = s.freeCount := by simp [State.zeroOrders]
@[simp] theorem State.zeroOrders_gauges (p : Fin 32 → Bool) : (s.zeroOrders p).gauges = s.gauges := by simp [State.zeroOrders]
@[simp] theorem State.zeroOrders_catchments (p : Fin 32 → Bool) : (s.zeroOrders p).catchments = s.catchments := by simp [State.zeroOrders]
@[simp] theorem State.zeroOrders_alerts (p : Fin 32 → Bool) : (s.zeroOrders p).alerts = s.alerts := by simp [State.zeroOrders]
@[simp] theorem State.zeroOrders_alloc (p : Fin 32 → Bool) : (s.zeroOrders p).alloc = s.alloc := by simp [State.zeroOrders]
@[simp] theorem State.zeroOrders_guard (p : Fin 32 → Bool) : (s.zeroOrders p).guard = s.guard := by simp [State.zeroOrders]
@[simp] theorem State.zeroOrders_windowHours (p : Fin 32 → Bool) : (s.zeroOrders p).windowHours = s.windowHours := by simp [State.zeroOrders]
@[simp] theorem State.zeroOrders_notices (p : Fin 32 → Bool) : (s.zeroOrders p).notices = s.notices := by simp [State.zeroOrders]

/-! ### delist -/

@[simp] theorem State.delist_pending (p : Fin 32 → Bool) : (s.delist p).pending = s.pending := by simp [State.delist]
@[simp] theorem State.delist_resetAsserted (p : Fin 32 → Bool) : (s.delist p).resetAsserted = s.resetAsserted := by simp [State.delist]
@[simp] theorem State.delist_pins (p : Fin 32 → Bool) : (s.delist p).pins = s.pins := by simp [State.delist]
@[simp] theorem State.delist_ds (p : Fin 32 → Bool) : (s.delist p).ds = s.ds := by simp [State.delist]
@[simp] theorem State.delist_port (p : Fin 32 → Bool) : (s.delist p).port = s.port := by simp [State.delist]
@[simp] theorem State.delist_overrun (p : Fin 32 → Bool) : (s.delist p).overrun = s.overrun := by simp [State.delist]
@[simp] theorem State.delist_transaction (p : Fin 32 → Bool) : (s.delist p).transaction = s.transaction := by simp [State.delist]
@[simp] theorem State.delist_shiftedOut (p : Fin 32 → Bool) : (s.delist p).shiftedOut = s.shiftedOut := by simp [State.delist]
@[simp] theorem State.delist_freeCount (p : Fin 32 → Bool) : (s.delist p).freeCount = s.freeCount := by simp [State.delist]
@[simp] theorem State.delist_tanks (p : Fin 32 → Bool) : (s.delist p).tanks = s.tanks := by simp [State.delist]
@[simp] theorem State.delist_orders (p : Fin 32 → Bool) : (s.delist p).orders = s.orders := by simp [State.delist]
@[simp] theorem State.delist_gauges (p : Fin 32 → Bool) : (s.delist p).gauges = s.gauges := by simp [State.delist]
@[simp] theorem State.delist_catchments (p : Fin 32 → Bool) : (s.delist p).catchments = s.catchments := by simp [State.delist]
@[simp] theorem State.delist_alerts (p : Fin 32 → Bool) : (s.delist p).alerts = s.alerts := by simp [State.delist]
@[simp] theorem State.delist_guard (p : Fin 32 → Bool) : (s.delist p).guard = s.guard := by simp [State.delist]
@[simp] theorem State.delist_windowHours (p : Fin 32 → Bool) : (s.delist p).windowHours = s.windowHours := by simp [State.delist]
@[simp] theorem State.delist_notices (p : Fin 32 → Bool) : (s.delist p).notices = s.notices := by simp [State.delist]

/-! ### withdraw -/

@[simp] theorem State.withdraw_pending (p : Fin 32 → Bool) : (s.withdraw p).pending = s.pending := by simp [State.withdraw]
@[simp] theorem State.withdraw_resetAsserted (p : Fin 32 → Bool) : (s.withdraw p).resetAsserted = s.resetAsserted := by simp [State.withdraw]
@[simp] theorem State.withdraw_pins (p : Fin 32 → Bool) : (s.withdraw p).pins = s.pins := by simp [State.withdraw]
@[simp] theorem State.withdraw_ds (p : Fin 32 → Bool) : (s.withdraw p).ds = s.ds := by simp [State.withdraw]
@[simp] theorem State.withdraw_port (p : Fin 32 → Bool) : (s.withdraw p).port = s.port := by simp [State.withdraw]
@[simp] theorem State.withdraw_overrun (p : Fin 32 → Bool) : (s.withdraw p).overrun = s.overrun := by simp [State.withdraw]
@[simp] theorem State.withdraw_transaction (p : Fin 32 → Bool) : (s.withdraw p).transaction = s.transaction := by simp [State.withdraw]
@[simp] theorem State.withdraw_shiftedOut (p : Fin 32 → Bool) : (s.withdraw p).shiftedOut = s.shiftedOut := by simp [State.withdraw]
@[simp] theorem State.withdraw_freeCount (p : Fin 32 → Bool) : (s.withdraw p).freeCount = s.freeCount := by simp [State.withdraw]
@[simp] theorem State.withdraw_gauges (p : Fin 32 → Bool) : (s.withdraw p).gauges = s.gauges := by simp [State.withdraw]
@[simp] theorem State.withdraw_catchments (p : Fin 32 → Bool) : (s.withdraw p).catchments = s.catchments := by simp [State.withdraw]
@[simp] theorem State.withdraw_alerts (p : Fin 32 → Bool) : (s.withdraw p).alerts = s.alerts := by simp [State.withdraw]
@[simp] theorem State.withdraw_guard (p : Fin 32 → Bool) : (s.withdraw p).guard = s.guard := by simp [State.withdraw]
@[simp] theorem State.withdraw_windowHours (p : Fin 32 → Bool) : (s.withdraw p).windowHours = s.windowHours := by simp [State.withdraw]
@[simp] theorem State.withdraw_notices (p : Fin 32 → Bool) : (s.withdraw p).notices = s.notices := by simp [State.withdraw]

/-! ### formInhibits -/

@[simp] theorem State.formInhibits_pending (p : Fin 32 → Bool) : (s.formInhibits p).pending = s.pending := by simp [State.formInhibits]
@[simp] theorem State.formInhibits_resetAsserted (p : Fin 32 → Bool) : (s.formInhibits p).resetAsserted = s.resetAsserted := by simp [State.formInhibits]
@[simp] theorem State.formInhibits_pins (p : Fin 32 → Bool) : (s.formInhibits p).pins = s.pins := by simp [State.formInhibits]
@[simp] theorem State.formInhibits_ds (p : Fin 32 → Bool) : (s.formInhibits p).ds = s.ds := by simp [State.formInhibits]
@[simp] theorem State.formInhibits_port (p : Fin 32 → Bool) : (s.formInhibits p).port = s.port := by simp [State.formInhibits]
@[simp] theorem State.formInhibits_overrun (p : Fin 32 → Bool) : (s.formInhibits p).overrun = s.overrun := by simp [State.formInhibits]
@[simp] theorem State.formInhibits_transaction (p : Fin 32 → Bool) : (s.formInhibits p).transaction = s.transaction := by simp [State.formInhibits]
@[simp] theorem State.formInhibits_shiftedOut (p : Fin 32 → Bool) : (s.formInhibits p).shiftedOut = s.shiftedOut := by simp [State.formInhibits]
@[simp] theorem State.formInhibits_freeCount (p : Fin 32 → Bool) : (s.formInhibits p).freeCount = s.freeCount := by simp [State.formInhibits]
@[simp] theorem State.formInhibits_gauges (p : Fin 32 → Bool) : (s.formInhibits p).gauges = s.gauges := by simp [State.formInhibits]
@[simp] theorem State.formInhibits_catchments (p : Fin 32 → Bool) : (s.formInhibits p).catchments = s.catchments := by simp [State.formInhibits]
@[simp] theorem State.formInhibits_alerts (p : Fin 32 → Bool) : (s.formInhibits p).alerts = s.alerts := by simp [State.formInhibits]
@[simp] theorem State.formInhibits_guard (p : Fin 32 → Bool) : (s.formInhibits p).guard = s.guard := by simp [State.formInhibits]
@[simp] theorem State.formInhibits_windowHours (p : Fin 32 → Bool) : (s.formInhibits p).windowHours = s.windowHours := by simp [State.formInhibits]
@[simp] theorem State.formInhibits_notices (p : Fin 32 → Bool) : (s.formInhibits p).notices = s.notices := by simp [State.formInhibits]

/-! ### setGauge -/

@[simp] theorem State.setGauge_pending (i : Fin 12) (g : Option Gauge) : (s.setGauge i g).pending = s.pending := by simp [State.setGauge]
@[simp] theorem State.setGauge_resetAsserted (i : Fin 12) (g : Option Gauge) : (s.setGauge i g).resetAsserted = s.resetAsserted := by simp [State.setGauge]
@[simp] theorem State.setGauge_pins (i : Fin 12) (g : Option Gauge) : (s.setGauge i g).pins = s.pins := by simp [State.setGauge]
@[simp] theorem State.setGauge_ds (i : Fin 12) (g : Option Gauge) : (s.setGauge i g).ds = s.ds := by simp [State.setGauge]
@[simp] theorem State.setGauge_port (i : Fin 12) (g : Option Gauge) : (s.setGauge i g).port = s.port := by simp [State.setGauge]
@[simp] theorem State.setGauge_overrun (i : Fin 12) (g : Option Gauge) : (s.setGauge i g).overrun = s.overrun := by simp [State.setGauge]
@[simp] theorem State.setGauge_transaction (i : Fin 12) (g : Option Gauge) : (s.setGauge i g).transaction = s.transaction := by simp [State.setGauge]
@[simp] theorem State.setGauge_shiftedOut (i : Fin 12) (g : Option Gauge) : (s.setGauge i g).shiftedOut = s.shiftedOut := by simp [State.setGauge]
@[simp] theorem State.setGauge_freeCount (i : Fin 12) (g : Option Gauge) : (s.setGauge i g).freeCount = s.freeCount := by simp [State.setGauge]
@[simp] theorem State.setGauge_tanks (i : Fin 12) (g : Option Gauge) : (s.setGauge i g).tanks = s.tanks := by simp [State.setGauge]
@[simp] theorem State.setGauge_orders (i : Fin 12) (g : Option Gauge) : (s.setGauge i g).orders = s.orders := by simp [State.setGauge]
@[simp] theorem State.setGauge_catchments (i : Fin 12) (g : Option Gauge) : (s.setGauge i g).catchments = s.catchments := by simp [State.setGauge]
@[simp] theorem State.setGauge_alerts (i : Fin 12) (g : Option Gauge) : (s.setGauge i g).alerts = s.alerts := by simp [State.setGauge]
@[simp] theorem State.setGauge_alloc (i : Fin 12) (g : Option Gauge) : (s.setGauge i g).alloc = s.alloc := by simp [State.setGauge]
@[simp] theorem State.setGauge_guard (i : Fin 12) (g : Option Gauge) : (s.setGauge i g).guard = s.guard := by simp [State.setGauge]
@[simp] theorem State.setGauge_windowHours (i : Fin 12) (g : Option Gauge) : (s.setGauge i g).windowHours = s.windowHours := by simp [State.setGauge]
@[simp] theorem State.setGauge_notices (i : Fin 12) (g : Option Gauge) : (s.setGauge i g).notices = s.notices := by simp [State.setGauge]

/-! ### setCatchment -/

@[simp] theorem State.setCatchment_pending (i : Fin 8) (c : Option Catchment) : (s.setCatchment i c).pending = s.pending := by simp [State.setCatchment]
@[simp] theorem State.setCatchment_resetAsserted (i : Fin 8) (c : Option Catchment) : (s.setCatchment i c).resetAsserted = s.resetAsserted := by simp [State.setCatchment]
@[simp] theorem State.setCatchment_pins (i : Fin 8) (c : Option Catchment) : (s.setCatchment i c).pins = s.pins := by simp [State.setCatchment]
@[simp] theorem State.setCatchment_ds (i : Fin 8) (c : Option Catchment) : (s.setCatchment i c).ds = s.ds := by simp [State.setCatchment]
@[simp] theorem State.setCatchment_port (i : Fin 8) (c : Option Catchment) : (s.setCatchment i c).port = s.port := by simp [State.setCatchment]
@[simp] theorem State.setCatchment_overrun (i : Fin 8) (c : Option Catchment) : (s.setCatchment i c).overrun = s.overrun := by simp [State.setCatchment]
@[simp] theorem State.setCatchment_transaction (i : Fin 8) (c : Option Catchment) : (s.setCatchment i c).transaction = s.transaction := by simp [State.setCatchment]
@[simp] theorem State.setCatchment_shiftedOut (i : Fin 8) (c : Option Catchment) : (s.setCatchment i c).shiftedOut = s.shiftedOut := by simp [State.setCatchment]
@[simp] theorem State.setCatchment_freeCount (i : Fin 8) (c : Option Catchment) : (s.setCatchment i c).freeCount = s.freeCount := by simp [State.setCatchment]
@[simp] theorem State.setCatchment_tanks (i : Fin 8) (c : Option Catchment) : (s.setCatchment i c).tanks = s.tanks := by simp [State.setCatchment]
@[simp] theorem State.setCatchment_orders (i : Fin 8) (c : Option Catchment) : (s.setCatchment i c).orders = s.orders := by simp [State.setCatchment]
@[simp] theorem State.setCatchment_gauges (i : Fin 8) (c : Option Catchment) : (s.setCatchment i c).gauges = s.gauges := by simp [State.setCatchment]
@[simp] theorem State.setCatchment_alerts (i : Fin 8) (c : Option Catchment) : (s.setCatchment i c).alerts = s.alerts := by simp [State.setCatchment]
@[simp] theorem State.setCatchment_alloc (i : Fin 8) (c : Option Catchment) : (s.setCatchment i c).alloc = s.alloc := by simp [State.setCatchment]
@[simp] theorem State.setCatchment_guard (i : Fin 8) (c : Option Catchment) : (s.setCatchment i c).guard = s.guard := by simp [State.setCatchment]
@[simp] theorem State.setCatchment_windowHours (i : Fin 8) (c : Option Catchment) : (s.setCatchment i c).windowHours = s.windowHours := by simp [State.setCatchment]
@[simp] theorem State.setCatchment_notices (i : Fin 8) (c : Option Catchment) : (s.setCatchment i c).notices = s.notices := by simp [State.setCatchment]

/-! ### formRainAlert -/

@[simp] theorem State.formRainAlert_pending : (s.formRainAlert).pending = s.pending := by simp [State.formRainAlert]
@[simp] theorem State.formRainAlert_resetAsserted : (s.formRainAlert).resetAsserted = s.resetAsserted := by simp [State.formRainAlert]
@[simp] theorem State.formRainAlert_pins : (s.formRainAlert).pins = s.pins := by simp [State.formRainAlert]
@[simp] theorem State.formRainAlert_ds : (s.formRainAlert).ds = s.ds := by simp [State.formRainAlert]
@[simp] theorem State.formRainAlert_port : (s.formRainAlert).port = s.port := by simp [State.formRainAlert]
@[simp] theorem State.formRainAlert_overrun : (s.formRainAlert).overrun = s.overrun := by simp [State.formRainAlert]
@[simp] theorem State.formRainAlert_transaction : (s.formRainAlert).transaction = s.transaction := by simp [State.formRainAlert]
@[simp] theorem State.formRainAlert_shiftedOut : (s.formRainAlert).shiftedOut = s.shiftedOut := by simp [State.formRainAlert]
@[simp] theorem State.formRainAlert_freeCount : (s.formRainAlert).freeCount = s.freeCount := by simp [State.formRainAlert]
@[simp] theorem State.formRainAlert_tanks : (s.formRainAlert).tanks = s.tanks := by simp [State.formRainAlert]
@[simp] theorem State.formRainAlert_orders : (s.formRainAlert).orders = s.orders := by simp [State.formRainAlert]
@[simp] theorem State.formRainAlert_gauges : (s.formRainAlert).gauges = s.gauges := by simp [State.formRainAlert]
@[simp] theorem State.formRainAlert_catchments : (s.formRainAlert).catchments = s.catchments := by simp [State.formRainAlert]
@[simp] theorem State.formRainAlert_alloc : (s.formRainAlert).alloc = s.alloc := by simp [State.formRainAlert]
@[simp] theorem State.formRainAlert_guard : (s.formRainAlert).guard = s.guard := by simp [State.formRainAlert]
@[simp] theorem State.formRainAlert_windowHours : (s.formRainAlert).windowHours = s.windowHours := by simp [State.formRainAlert]
@[simp] theorem State.formRainAlert_notices : (s.formRainAlert).notices = s.notices := by simp [State.formRainAlert]

/-! ### discardTankNotices -/

@[simp] theorem State.discardTankNotices_pending (i : Fin 32) : (s.discardTankNotices i).pending = s.pending := by simp [State.discardTankNotices]
@[simp] theorem State.discardTankNotices_resetAsserted (i : Fin 32) : (s.discardTankNotices i).resetAsserted = s.resetAsserted := by simp [State.discardTankNotices]
@[simp] theorem State.discardTankNotices_pins (i : Fin 32) : (s.discardTankNotices i).pins = s.pins := by simp [State.discardTankNotices]
@[simp] theorem State.discardTankNotices_ds (i : Fin 32) : (s.discardTankNotices i).ds = s.ds := by simp [State.discardTankNotices]
@[simp] theorem State.discardTankNotices_port (i : Fin 32) : (s.discardTankNotices i).port = s.port := by simp [State.discardTankNotices]
@[simp] theorem State.discardTankNotices_overrun (i : Fin 32) : (s.discardTankNotices i).overrun = s.overrun := by simp [State.discardTankNotices]
@[simp] theorem State.discardTankNotices_transaction (i : Fin 32) : (s.discardTankNotices i).transaction = s.transaction := by simp [State.discardTankNotices]
@[simp] theorem State.discardTankNotices_shiftedOut (i : Fin 32) : (s.discardTankNotices i).shiftedOut = s.shiftedOut := by simp [State.discardTankNotices]
@[simp] theorem State.discardTankNotices_freeCount (i : Fin 32) : (s.discardTankNotices i).freeCount = s.freeCount := by simp [State.discardTankNotices]
@[simp] theorem State.discardTankNotices_tanks (i : Fin 32) : (s.discardTankNotices i).tanks = s.tanks := by simp [State.discardTankNotices]
@[simp] theorem State.discardTankNotices_orders (i : Fin 32) : (s.discardTankNotices i).orders = s.orders := by simp [State.discardTankNotices]
@[simp] theorem State.discardTankNotices_gauges (i : Fin 32) : (s.discardTankNotices i).gauges = s.gauges := by simp [State.discardTankNotices]
@[simp] theorem State.discardTankNotices_catchments (i : Fin 32) : (s.discardTankNotices i).catchments = s.catchments := by simp [State.discardTankNotices]
@[simp] theorem State.discardTankNotices_alerts (i : Fin 32) : (s.discardTankNotices i).alerts = s.alerts := by simp [State.discardTankNotices]
@[simp] theorem State.discardTankNotices_alloc (i : Fin 32) : (s.discardTankNotices i).alloc = s.alloc := by simp [State.discardTankNotices]
@[simp] theorem State.discardTankNotices_guard (i : Fin 32) : (s.discardTankNotices i).guard = s.guard := by simp [State.discardTankNotices]
@[simp] theorem State.discardTankNotices_windowHours (i : Fin 32) : (s.discardTankNotices i).windowHours = s.windowHours := by simp [State.discardTankNotices]

/-! ### discardCatchmentNotices -/

@[simp] theorem State.discardCatchmentNotices_pending (i : Fin 8) : (s.discardCatchmentNotices i).pending = s.pending := by simp [State.discardCatchmentNotices]
@[simp] theorem State.discardCatchmentNotices_resetAsserted (i : Fin 8) : (s.discardCatchmentNotices i).resetAsserted = s.resetAsserted := by simp [State.discardCatchmentNotices]
@[simp] theorem State.discardCatchmentNotices_pins (i : Fin 8) : (s.discardCatchmentNotices i).pins = s.pins := by simp [State.discardCatchmentNotices]
@[simp] theorem State.discardCatchmentNotices_ds (i : Fin 8) : (s.discardCatchmentNotices i).ds = s.ds := by simp [State.discardCatchmentNotices]
@[simp] theorem State.discardCatchmentNotices_port (i : Fin 8) : (s.discardCatchmentNotices i).port = s.port := by simp [State.discardCatchmentNotices]
@[simp] theorem State.discardCatchmentNotices_overrun (i : Fin 8) : (s.discardCatchmentNotices i).overrun = s.overrun := by simp [State.discardCatchmentNotices]
@[simp] theorem State.discardCatchmentNotices_transaction (i : Fin 8) : (s.discardCatchmentNotices i).transaction = s.transaction := by simp [State.discardCatchmentNotices]
@[simp] theorem State.discardCatchmentNotices_shiftedOut (i : Fin 8) : (s.discardCatchmentNotices i).shiftedOut = s.shiftedOut := by simp [State.discardCatchmentNotices]
@[simp] theorem State.discardCatchmentNotices_freeCount (i : Fin 8) : (s.discardCatchmentNotices i).freeCount = s.freeCount := by simp [State.discardCatchmentNotices]
@[simp] theorem State.discardCatchmentNotices_tanks (i : Fin 8) : (s.discardCatchmentNotices i).tanks = s.tanks := by simp [State.discardCatchmentNotices]
@[simp] theorem State.discardCatchmentNotices_orders (i : Fin 8) : (s.discardCatchmentNotices i).orders = s.orders := by simp [State.discardCatchmentNotices]
@[simp] theorem State.discardCatchmentNotices_gauges (i : Fin 8) : (s.discardCatchmentNotices i).gauges = s.gauges := by simp [State.discardCatchmentNotices]
@[simp] theorem State.discardCatchmentNotices_catchments (i : Fin 8) : (s.discardCatchmentNotices i).catchments = s.catchments := by simp [State.discardCatchmentNotices]
@[simp] theorem State.discardCatchmentNotices_alerts (i : Fin 8) : (s.discardCatchmentNotices i).alerts = s.alerts := by simp [State.discardCatchmentNotices]
@[simp] theorem State.discardCatchmentNotices_alloc (i : Fin 8) : (s.discardCatchmentNotices i).alloc = s.alloc := by simp [State.discardCatchmentNotices]
@[simp] theorem State.discardCatchmentNotices_guard (i : Fin 8) : (s.discardCatchmentNotices i).guard = s.guard := by simp [State.discardCatchmentNotices]
@[simp] theorem State.discardCatchmentNotices_windowHours (i : Fin 8) : (s.discardCatchmentNotices i).windowHours = s.windowHours := by simp [State.discardCatchmentNotices]

/-! ### clearEntry -/

@[simp] theorem State.clearEntry_pending (i : Fin 32) : (s.clearEntry i).pending = s.pending := by simp [State.clearEntry]
@[simp] theorem State.clearEntry_resetAsserted (i : Fin 32) : (s.clearEntry i).resetAsserted = s.resetAsserted := by simp [State.clearEntry]
@[simp] theorem State.clearEntry_pins (i : Fin 32) : (s.clearEntry i).pins = s.pins := by simp [State.clearEntry]
@[simp] theorem State.clearEntry_ds (i : Fin 32) : (s.clearEntry i).ds = s.ds := by simp [State.clearEntry]
@[simp] theorem State.clearEntry_port (i : Fin 32) : (s.clearEntry i).port = s.port := by simp [State.clearEntry]
@[simp] theorem State.clearEntry_overrun (i : Fin 32) : (s.clearEntry i).overrun = s.overrun := by simp [State.clearEntry]
@[simp] theorem State.clearEntry_transaction (i : Fin 32) : (s.clearEntry i).transaction = s.transaction := by simp [State.clearEntry]
@[simp] theorem State.clearEntry_shiftedOut (i : Fin 32) : (s.clearEntry i).shiftedOut = s.shiftedOut := by simp [State.clearEntry]
@[simp] theorem State.clearEntry_freeCount (i : Fin 32) : (s.clearEntry i).freeCount = s.freeCount := by simp [State.clearEntry]
@[simp] theorem State.clearEntry_tanks (i : Fin 32) : (s.clearEntry i).tanks = s.tanks := by simp [State.clearEntry]
@[simp] theorem State.clearEntry_gauges (i : Fin 32) : (s.clearEntry i).gauges = s.gauges := by simp [State.clearEntry]
@[simp] theorem State.clearEntry_catchments (i : Fin 32) : (s.clearEntry i).catchments = s.catchments := by simp [State.clearEntry]
@[simp] theorem State.clearEntry_alerts (i : Fin 32) : (s.clearEntry i).alerts = s.alerts := by simp [State.clearEntry]
@[simp] theorem State.clearEntry_alloc (i : Fin 32) : (s.clearEntry i).alloc = s.alloc := by simp [State.clearEntry]
@[simp] theorem State.clearEntry_guard (i : Fin 32) : (s.clearEntry i).guard = s.guard := by simp [State.clearEntry]
@[simp] theorem State.clearEntry_windowHours (i : Fin 32) : (s.clearEntry i).windowHours = s.windowHours := by simp [State.clearEntry]
@[simp] theorem State.clearEntry_notices (i : Fin 32) : (s.clearEntry i).notices = s.notices := by simp [State.clearEntry]

/-! ### clearMark -/

@[simp] theorem State.clearMark_pending (i : Fin 32) : (s.clearMark i).pending = s.pending := by simp [State.clearMark]
@[simp] theorem State.clearMark_resetAsserted (i : Fin 32) : (s.clearMark i).resetAsserted = s.resetAsserted := by simp [State.clearMark]
@[simp] theorem State.clearMark_pins (i : Fin 32) : (s.clearMark i).pins = s.pins := by simp [State.clearMark]
@[simp] theorem State.clearMark_ds (i : Fin 32) : (s.clearMark i).ds = s.ds := by simp [State.clearMark]
@[simp] theorem State.clearMark_port (i : Fin 32) : (s.clearMark i).port = s.port := by simp [State.clearMark]
@[simp] theorem State.clearMark_overrun (i : Fin 32) : (s.clearMark i).overrun = s.overrun := by simp [State.clearMark]
@[simp] theorem State.clearMark_transaction (i : Fin 32) : (s.clearMark i).transaction = s.transaction := by simp [State.clearMark]
@[simp] theorem State.clearMark_shiftedOut (i : Fin 32) : (s.clearMark i).shiftedOut = s.shiftedOut := by simp [State.clearMark]
@[simp] theorem State.clearMark_freeCount (i : Fin 32) : (s.clearMark i).freeCount = s.freeCount := by simp [State.clearMark]
@[simp] theorem State.clearMark_tanks (i : Fin 32) : (s.clearMark i).tanks = s.tanks := by simp [State.clearMark]
@[simp] theorem State.clearMark_gauges (i : Fin 32) : (s.clearMark i).gauges = s.gauges := by simp [State.clearMark]
@[simp] theorem State.clearMark_catchments (i : Fin 32) : (s.clearMark i).catchments = s.catchments := by simp [State.clearMark]
@[simp] theorem State.clearMark_alerts (i : Fin 32) : (s.clearMark i).alerts = s.alerts := by simp [State.clearMark]
@[simp] theorem State.clearMark_alloc (i : Fin 32) : (s.clearMark i).alloc = s.alloc := by simp [State.clearMark]
@[simp] theorem State.clearMark_guard (i : Fin 32) : (s.clearMark i).guard = s.guard := by simp [State.clearMark]
@[simp] theorem State.clearMark_windowHours (i : Fin 32) : (s.clearMark i).windowHours = s.windowHours := by simp [State.clearMark]
@[simp] theorem State.clearMark_notices (i : Fin 32) : (s.clearMark i).notices = s.notices := by simp [State.clearMark]

/-! ### flagSpills -/

@[simp] theorem State.flagSpills_pending : (s.flagSpills).pending = s.pending := by simp [State.flagSpills]
@[simp] theorem State.flagSpills_resetAsserted : (s.flagSpills).resetAsserted = s.resetAsserted := by simp [State.flagSpills]
@[simp] theorem State.flagSpills_pins : (s.flagSpills).pins = s.pins := by simp [State.flagSpills]
@[simp] theorem State.flagSpills_ds : (s.flagSpills).ds = s.ds := by simp [State.flagSpills]
@[simp] theorem State.flagSpills_port : (s.flagSpills).port = s.port := by simp [State.flagSpills]
@[simp] theorem State.flagSpills_overrun : (s.flagSpills).overrun = s.overrun := by simp [State.flagSpills]
@[simp] theorem State.flagSpills_transaction : (s.flagSpills).transaction = s.transaction := by simp [State.flagSpills]
@[simp] theorem State.flagSpills_shiftedOut : (s.flagSpills).shiftedOut = s.shiftedOut := by simp [State.flagSpills]
@[simp] theorem State.flagSpills_freeCount : (s.flagSpills).freeCount = s.freeCount := by simp [State.flagSpills]
@[simp] theorem State.flagSpills_orders : (s.flagSpills).orders = s.orders := by simp [State.flagSpills]
@[simp] theorem State.flagSpills_gauges : (s.flagSpills).gauges = s.gauges := by simp [State.flagSpills]
@[simp] theorem State.flagSpills_catchments : (s.flagSpills).catchments = s.catchments := by simp [State.flagSpills]
@[simp] theorem State.flagSpills_alerts : (s.flagSpills).alerts = s.alerts := by simp [State.flagSpills]
@[simp] theorem State.flagSpills_alloc : (s.flagSpills).alloc = s.alloc := by simp [State.flagSpills]
@[simp] theorem State.flagSpills_guard : (s.flagSpills).guard = s.guard := by simp [State.flagSpills]
@[simp] theorem State.flagSpills_windowHours : (s.flagSpills).windowHours = s.windowHours := by simp [State.flagSpills]
@[simp] theorem State.flagSpills_notices : (s.flagSpills).notices = s.notices := by simp [State.flagSpills]

/-! ### takeSnapshots -/

@[simp] theorem State.takeSnapshots_pending : (s.takeSnapshots).pending = s.pending := by simp [State.takeSnapshots]
@[simp] theorem State.takeSnapshots_resetAsserted : (s.takeSnapshots).resetAsserted = s.resetAsserted := by simp [State.takeSnapshots]
@[simp] theorem State.takeSnapshots_pins : (s.takeSnapshots).pins = s.pins := by simp [State.takeSnapshots]
@[simp] theorem State.takeSnapshots_ds : (s.takeSnapshots).ds = s.ds := by simp [State.takeSnapshots]
@[simp] theorem State.takeSnapshots_port : (s.takeSnapshots).port = s.port := by simp [State.takeSnapshots]
@[simp] theorem State.takeSnapshots_overrun : (s.takeSnapshots).overrun = s.overrun := by simp [State.takeSnapshots]
@[simp] theorem State.takeSnapshots_transaction : (s.takeSnapshots).transaction = s.transaction := by simp [State.takeSnapshots]
@[simp] theorem State.takeSnapshots_shiftedOut : (s.takeSnapshots).shiftedOut = s.shiftedOut := by simp [State.takeSnapshots]
@[simp] theorem State.takeSnapshots_freeCount : (s.takeSnapshots).freeCount = s.freeCount := by simp [State.takeSnapshots]
@[simp] theorem State.takeSnapshots_orders : (s.takeSnapshots).orders = s.orders := by simp [State.takeSnapshots]
@[simp] theorem State.takeSnapshots_gauges : (s.takeSnapshots).gauges = s.gauges := by simp [State.takeSnapshots]
@[simp] theorem State.takeSnapshots_catchments : (s.takeSnapshots).catchments = s.catchments := by simp [State.takeSnapshots]
@[simp] theorem State.takeSnapshots_alerts : (s.takeSnapshots).alerts = s.alerts := by simp [State.takeSnapshots]
@[simp] theorem State.takeSnapshots_alloc : (s.takeSnapshots).alloc = s.alloc := by simp [State.takeSnapshots]
@[simp] theorem State.takeSnapshots_guard : (s.takeSnapshots).guard = s.guard := by simp [State.takeSnapshots]
@[simp] theorem State.takeSnapshots_windowHours : (s.takeSnapshots).windowHours = s.windowHours := by simp [State.takeSnapshots]
@[simp] theorem State.takeSnapshots_notices : (s.takeSnapshots).notices = s.notices := by simp [State.takeSnapshots]

/-! ### setTrip -/

@[simp] theorem State.setTrip_pending (t : Trip) : (s.setTrip t).pending = s.pending := by simp [State.setTrip]
@[simp] theorem State.setTrip_resetAsserted (t : Trip) : (s.setTrip t).resetAsserted = s.resetAsserted := by simp [State.setTrip]
@[simp] theorem State.setTrip_pins (t : Trip) : (s.setTrip t).pins = s.pins := by simp [State.setTrip]
@[simp] theorem State.setTrip_ds (t : Trip) : (s.setTrip t).ds = s.ds := by simp [State.setTrip]
@[simp] theorem State.setTrip_port (t : Trip) : (s.setTrip t).port = s.port := by simp [State.setTrip]
@[simp] theorem State.setTrip_overrun (t : Trip) : (s.setTrip t).overrun = s.overrun := by simp [State.setTrip]
@[simp] theorem State.setTrip_transaction (t : Trip) : (s.setTrip t).transaction = s.transaction := by simp [State.setTrip]
@[simp] theorem State.setTrip_shiftedOut (t : Trip) : (s.setTrip t).shiftedOut = s.shiftedOut := by simp [State.setTrip]
@[simp] theorem State.setTrip_freeCount (t : Trip) : (s.setTrip t).freeCount = s.freeCount := by simp [State.setTrip]
@[simp] theorem State.setTrip_tanks (t : Trip) : (s.setTrip t).tanks = s.tanks := by simp [State.setTrip]
@[simp] theorem State.setTrip_orders (t : Trip) : (s.setTrip t).orders = s.orders := by simp [State.setTrip]
@[simp] theorem State.setTrip_gauges (t : Trip) : (s.setTrip t).gauges = s.gauges := by simp [State.setTrip]
@[simp] theorem State.setTrip_catchments (t : Trip) : (s.setTrip t).catchments = s.catchments := by simp [State.setTrip]
@[simp] theorem State.setTrip_alerts (t : Trip) : (s.setTrip t).alerts = s.alerts := by simp [State.setTrip]
@[simp] theorem State.setTrip_alloc (t : Trip) : (s.setTrip t).alloc = s.alloc := by simp [State.setTrip]
@[simp] theorem State.setTrip_windowHours (t : Trip) : (s.setTrip t).windowHours = s.windowHours := by simp [State.setTrip]
@[simp] theorem State.setTrip_notices (t : Trip) : (s.setTrip t).notices = s.notices := by simp [State.setTrip]

/-! ### setHold -/

@[simp] theorem State.setHold_pending (h : Hold) : (s.setHold h).pending = s.pending := by simp [State.setHold]
@[simp] theorem State.setHold_resetAsserted (h : Hold) : (s.setHold h).resetAsserted = s.resetAsserted := by simp [State.setHold]
@[simp] theorem State.setHold_pins (h : Hold) : (s.setHold h).pins = s.pins := by simp [State.setHold]
@[simp] theorem State.setHold_ds (h : Hold) : (s.setHold h).ds = s.ds := by simp [State.setHold]
@[simp] theorem State.setHold_port (h : Hold) : (s.setHold h).port = s.port := by simp [State.setHold]
@[simp] theorem State.setHold_overrun (h : Hold) : (s.setHold h).overrun = s.overrun := by simp [State.setHold]
@[simp] theorem State.setHold_transaction (h : Hold) : (s.setHold h).transaction = s.transaction := by simp [State.setHold]
@[simp] theorem State.setHold_shiftedOut (h : Hold) : (s.setHold h).shiftedOut = s.shiftedOut := by simp [State.setHold]
@[simp] theorem State.setHold_freeCount (h : Hold) : (s.setHold h).freeCount = s.freeCount := by simp [State.setHold]
@[simp] theorem State.setHold_tanks (h : Hold) : (s.setHold h).tanks = s.tanks := by simp [State.setHold]
@[simp] theorem State.setHold_orders (h : Hold) : (s.setHold h).orders = s.orders := by simp [State.setHold]
@[simp] theorem State.setHold_gauges (h : Hold) : (s.setHold h).gauges = s.gauges := by simp [State.setHold]
@[simp] theorem State.setHold_catchments (h : Hold) : (s.setHold h).catchments = s.catchments := by simp [State.setHold]
@[simp] theorem State.setHold_alerts (h : Hold) : (s.setHold h).alerts = s.alerts := by simp [State.setHold]
@[simp] theorem State.setHold_alloc (h : Hold) : (s.setHold h).alloc = s.alloc := by simp [State.setHold]
@[simp] theorem State.setHold_windowHours (h : Hold) : (s.setHold h).windowHours = s.windowHours := by simp [State.setHold]
@[simp] theorem State.setHold_notices (h : Hold) : (s.setHold h).notices = s.notices := by simp [State.setHold]

/-! ### zeroAutoNext -/

@[simp] theorem State.zeroAutoNext_pending : (s.zeroAutoNext).pending = s.pending := by simp [State.zeroAutoNext]
@[simp] theorem State.zeroAutoNext_resetAsserted : (s.zeroAutoNext).resetAsserted = s.resetAsserted := by simp [State.zeroAutoNext]
@[simp] theorem State.zeroAutoNext_pins : (s.zeroAutoNext).pins = s.pins := by simp [State.zeroAutoNext]
@[simp] theorem State.zeroAutoNext_ds : (s.zeroAutoNext).ds = s.ds := by simp [State.zeroAutoNext]
@[simp] theorem State.zeroAutoNext_port : (s.zeroAutoNext).port = s.port := by simp [State.zeroAutoNext]
@[simp] theorem State.zeroAutoNext_overrun : (s.zeroAutoNext).overrun = s.overrun := by simp [State.zeroAutoNext]
@[simp] theorem State.zeroAutoNext_transaction : (s.zeroAutoNext).transaction = s.transaction := by simp [State.zeroAutoNext]
@[simp] theorem State.zeroAutoNext_shiftedOut : (s.zeroAutoNext).shiftedOut = s.shiftedOut := by simp [State.zeroAutoNext]
@[simp] theorem State.zeroAutoNext_freeCount : (s.zeroAutoNext).freeCount = s.freeCount := by simp [State.zeroAutoNext]
@[simp] theorem State.zeroAutoNext_tanks : (s.zeroAutoNext).tanks = s.tanks := by simp [State.zeroAutoNext]
@[simp] theorem State.zeroAutoNext_gauges : (s.zeroAutoNext).gauges = s.gauges := by simp [State.zeroAutoNext]
@[simp] theorem State.zeroAutoNext_catchments : (s.zeroAutoNext).catchments = s.catchments := by simp [State.zeroAutoNext]
@[simp] theorem State.zeroAutoNext_alerts : (s.zeroAutoNext).alerts = s.alerts := by simp [State.zeroAutoNext]
@[simp] theorem State.zeroAutoNext_alloc : (s.zeroAutoNext).alloc = s.alloc := by simp [State.zeroAutoNext]
@[simp] theorem State.zeroAutoNext_guard : (s.zeroAutoNext).guard = s.guard := by simp [State.zeroAutoNext]
@[simp] theorem State.zeroAutoNext_windowHours : (s.zeroAutoNext).windowHours = s.windowHours := by simp [State.zeroAutoNext]
@[simp] theorem State.zeroAutoNext_notices : (s.zeroAutoNext).notices = s.notices := by simp [State.zeroAutoNext]

/-! ### formImminents -/

@[simp] theorem State.formImminents_pending : (s.formImminents).pending = s.pending := by simp [State.formImminents]
@[simp] theorem State.formImminents_resetAsserted : (s.formImminents).resetAsserted = s.resetAsserted := by simp [State.formImminents]
@[simp] theorem State.formImminents_pins : (s.formImminents).pins = s.pins := by simp [State.formImminents]
@[simp] theorem State.formImminents_ds : (s.formImminents).ds = s.ds := by simp [State.formImminents]
@[simp] theorem State.formImminents_port : (s.formImminents).port = s.port := by simp [State.formImminents]
@[simp] theorem State.formImminents_overrun : (s.formImminents).overrun = s.overrun := by simp [State.formImminents]
@[simp] theorem State.formImminents_transaction : (s.formImminents).transaction = s.transaction := by simp [State.formImminents]
@[simp] theorem State.formImminents_shiftedOut : (s.formImminents).shiftedOut = s.shiftedOut := by simp [State.formImminents]
@[simp] theorem State.formImminents_freeCount : (s.formImminents).freeCount = s.freeCount := by simp [State.formImminents]
@[simp] theorem State.formImminents_orders : (s.formImminents).orders = s.orders := by simp [State.formImminents]
@[simp] theorem State.formImminents_gauges : (s.formImminents).gauges = s.gauges := by simp [State.formImminents]
@[simp] theorem State.formImminents_catchments : (s.formImminents).catchments = s.catchments := by simp [State.formImminents]
@[simp] theorem State.formImminents_alerts : (s.formImminents).alerts = s.alerts := by simp [State.formImminents]
@[simp] theorem State.formImminents_alloc : (s.formImminents).alloc = s.alloc := by simp [State.formImminents]
@[simp] theorem State.formImminents_guard : (s.formImminents).guard = s.guard := by simp [State.formImminents]
@[simp] theorem State.formImminents_windowHours : (s.formImminents).windowHours = s.windowHours := by simp [State.formImminents]

/-! ### shown -/

@[simp] theorem State.shown_pending (b : Beginning) (out : List Byte) : (s.shown b out).pending = s.pending := by simp [State.shown]
@[simp] theorem State.shown_resetAsserted (b : Beginning) (out : List Byte) : (s.shown b out).resetAsserted = s.resetAsserted := by simp [State.shown]
@[simp] theorem State.shown_pins (b : Beginning) (out : List Byte) : (s.shown b out).pins = s.pins := by simp [State.shown]
@[simp] theorem State.shown_ds (b : Beginning) (out : List Byte) : (s.shown b out).ds = s.ds := by simp [State.shown]
@[simp] theorem State.shown_port (b : Beginning) (out : List Byte) : (s.shown b out).port = s.port := by simp [State.shown]
@[simp] theorem State.shown_transaction (b : Beginning) (out : List Byte) : (s.shown b out).transaction = s.transaction := by simp [State.shown]
@[simp] theorem State.shown_freeCount (b : Beginning) (out : List Byte) : (s.shown b out).freeCount = s.freeCount := by simp [State.shown]
@[simp] theorem State.shown_tanks (b : Beginning) (out : List Byte) : (s.shown b out).tanks = s.tanks := by simp [State.shown]
@[simp] theorem State.shown_orders (b : Beginning) (out : List Byte) : (s.shown b out).orders = s.orders := by simp [State.shown]
@[simp] theorem State.shown_gauges (b : Beginning) (out : List Byte) : (s.shown b out).gauges = s.gauges := by simp [State.shown]
@[simp] theorem State.shown_catchments (b : Beginning) (out : List Byte) : (s.shown b out).catchments = s.catchments := by simp [State.shown]
@[simp] theorem State.shown_alerts (b : Beginning) (out : List Byte) : (s.shown b out).alerts = s.alerts := by simp [State.shown]
@[simp] theorem State.shown_alloc (b : Beginning) (out : List Byte) : (s.shown b out).alloc = s.alloc := by simp [State.shown]
@[simp] theorem State.shown_guard (b : Beginning) (out : List Byte) : (s.shown b out).guard = s.guard := by simp [State.shown]
@[simp] theorem State.shown_windowHours (b : Beginning) (out : List Byte) : (s.shown b out).windowHours = s.windowHours := by simp [State.shown]
@[simp] theorem State.shown_notices (b : Beginning) (out : List Byte) : (s.shown b out).notices = s.notices := by simp [State.shown]

/-! ### replied -/

@[simp] theorem State.replied_pending (tag : Byte) (status : Status) (payload : List Byte) : (s.replied tag status payload).pending = s.pending := by simp [State.replied]
@[simp] theorem State.replied_resetAsserted (tag : Byte) (status : Status) (payload : List Byte) : (s.replied tag status payload).resetAsserted = s.resetAsserted := by simp [State.replied]
@[simp] theorem State.replied_pins (tag : Byte) (status : Status) (payload : List Byte) : (s.replied tag status payload).pins = s.pins := by simp [State.replied]
@[simp] theorem State.replied_ds (tag : Byte) (status : Status) (payload : List Byte) : (s.replied tag status payload).ds = s.ds := by simp [State.replied]
@[simp] theorem State.replied_overrun (tag : Byte) (status : Status) (payload : List Byte) : (s.replied tag status payload).overrun = s.overrun := by simp [State.replied]
@[simp] theorem State.replied_transaction (tag : Byte) (status : Status) (payload : List Byte) : (s.replied tag status payload).transaction = s.transaction := by simp [State.replied]
@[simp] theorem State.replied_shiftedOut (tag : Byte) (status : Status) (payload : List Byte) : (s.replied tag status payload).shiftedOut = s.shiftedOut := by simp [State.replied]
@[simp] theorem State.replied_freeCount (tag : Byte) (status : Status) (payload : List Byte) : (s.replied tag status payload).freeCount = s.freeCount := by simp [State.replied]
@[simp] theorem State.replied_tanks (tag : Byte) (status : Status) (payload : List Byte) : (s.replied tag status payload).tanks = s.tanks := by simp [State.replied]
@[simp] theorem State.replied_orders (tag : Byte) (status : Status) (payload : List Byte) : (s.replied tag status payload).orders = s.orders := by simp [State.replied]
@[simp] theorem State.replied_gauges (tag : Byte) (status : Status) (payload : List Byte) : (s.replied tag status payload).gauges = s.gauges := by simp [State.replied]
@[simp] theorem State.replied_catchments (tag : Byte) (status : Status) (payload : List Byte) : (s.replied tag status payload).catchments = s.catchments := by simp [State.replied]
@[simp] theorem State.replied_alerts (tag : Byte) (status : Status) (payload : List Byte) : (s.replied tag status payload).alerts = s.alerts := by simp [State.replied]
@[simp] theorem State.replied_alloc (tag : Byte) (status : Status) (payload : List Byte) : (s.replied tag status payload).alloc = s.alloc := by simp [State.replied]
@[simp] theorem State.replied_guard (tag : Byte) (status : Status) (payload : List Byte) : (s.replied tag status payload).guard = s.guard := by simp [State.replied]
@[simp] theorem State.replied_windowHours (tag : Byte) (status : Status) (payload : List Byte) : (s.replied tag status payload).windowHours = s.windowHours := by simp [State.replied]
@[simp] theorem State.replied_notices (tag : Byte) (status : Status) (payload : List Byte) : (s.replied tag status payload).notices = s.notices := by simp [State.replied]

/-! ### The value written -/

@[simp] theorem State.setTank_tanks (i : Fin 32) (t : Option Tank) : (s.setTank i t).tanks = s.tanks.set i t := by
  simp [State.setTank]
@[simp] theorem State.setGauge_gauges (i : Fin 12) (g : Option Gauge) : (s.setGauge i g).gauges = s.gauges.set i g := by
  simp [State.setGauge]
@[simp] theorem State.setCatchment_catchments (i : Fin 8) (c : Option Catchment) :
    (s.setCatchment i c).catchments = s.catchments.set i c := by
  simp [State.setCatchment]
@[simp] theorem State.setTrip_guard (t : Trip) : (s.setTrip t).guard = { s.guard with trip := t } := by
  simp [State.setTrip]
@[simp] theorem State.setHold_guard (h : Hold) : (s.setHold h).guard = { s.guard with hold := h } := by
  simp [State.setHold]
@[simp] theorem State.delist_alloc (p : Fin 32 → Bool) :
    (s.delist p).alloc = { s.alloc with runOrder := s.alloc.runOrder.filter fun i => !p i } := by
  simp [State.delist]
@[simp] theorem State.withdraw_alloc (p : Fin 32 → Bool) :
    (s.withdraw p).alloc = { s.alloc with runOrder := s.alloc.runOrder.filter fun i => !p i } := by
  simp [State.withdraw]
@[simp] theorem State.formRainAlert_alerts :
    s.formRainAlert.alerts = { s.alerts with rainAlert := Machine.formRainAlert s.catchments } := by
  simp [State.formRainAlert]
@[simp] theorem State.shown_shiftedOut (b : Beginning) (out : List Byte) : (s.shown b out).shiftedOut = b.statusByte :: out := by
  simp [State.shown]
@[simp] theorem State.shown_overrun (b : Beginning) (out : List Byte) : (s.shown b out).overrun = (s.overrun && !b.overrun) := by
  simp [State.shown]
@[simp] theorem State.replied_port (tag : Byte) (status : Status) (payload : List Byte) :
    (s.replied tag status payload).port = .reply { tag := tag, status := status, payload := payload } := by
  simp [State.replied]

end Sys2Proof.Machine
end

