-- ==== Sys2Proof/Laws/Ops.lean ====
section
/-! SUPPORT. For each shared operation, what it can do, said once: numbers in bytes, service parts, notices and lines, orders
with the effects of R130, and the withdrawal of tanks. -/

namespace Sys2Proof

/-! ### Numbers in bytes -/

/-- A field has exactly its width. -/
@[simp] theorem bytesOf_length (width n : Nat) : (bytesOf width n).length = width := by
  induction width generalizing n with
  | zero => rfl
  | succ w ih => simp [bytesOf, ih]

/-- Reading on after a byte. -/
theorem numberOf_append_byte (bytes : List Byte) (b : Byte) : numberOf (bytes ++ [b]) = numberOf bytes * 256 + b.toNat := by
  simp [numberOf]

/-- A number that fits its field is read back from it. -/
theorem numberOf_bytesOf (width n : Nat) (h : n < 256 ^ width) : numberOf (bytesOf width n) = n := by
  induction width generalizing n with
  | zero => simp at h; simp [h, bytesOf, numberOf]
  | succ w ih =>
    rw [bytesOf, numberOf_append_byte, ih _ (by rw [pow_succ] at h; omega)]
    simp; omega

/-- The layout of fields, one by one. -/
theorem joinFields_cons (w n : Nat) (widths numbers : List Nat) :
    joinFields (w :: widths) (n :: numbers) = bytesOf w n ++ joinFields widths numbers := by
  simp [joinFields]

/-- Fields laid out as they fit are read back, with whatever bytes follow them. -/
theorem splitFields_joinFields (widths numbers : List Nat) (rest : List Byte) (hl : widths.length = numbers.length)
    (h : ∀ p ∈ widths.zip numbers, p.2 < 256 ^ p.1) :
    splitFields widths (joinFields widths numbers ++ rest) = some (numbers, rest) := by
  induction widths generalizing numbers with
  | nil =>
    cases numbers with
    | nil => simp [splitFields, joinFields]
    | cons n ns => simp at hl
  | cons w ws ih =>
    cases numbers with
    | nil => simp at hl
    | cons n ns =>
      have hn : n < 256 ^ w := h (w, n) (by simp)
      have hs := ih ns (by simpa using hl) fun p hp => h p (by simp [hp])
      simp [splitFields, joinFields_cons, hs, numberOf_bytesOf w n hn]

/-- A payload of exactly these fields is read back. -/
theorem fieldsOf_joinFields (widths numbers : List Nat) (hl : widths.length = numbers.length)
    (h : ∀ p ∈ widths.zip numbers, p.2 < 256 ^ p.1) : fieldsOf widths (joinFields widths numbers) = some numbers := by
  have := splitFields_joinFields widths numbers [] hl h
  simp only [List.append_nil] at this
  simp [fieldsOf, this]

/-- Fields are read exactly where there are bytes enough, and the bytes left over are the rest. -/
theorem splitFields_isSome (widths : List Nat) (bytes : List Byte) :
    (widths.sum ≤ bytes.length →
      ∃ numbers, numbers.length = widths.length ∧ splitFields widths bytes = some (numbers, bytes.drop widths.sum)) ∧
    (bytes.length < widths.sum → splitFields widths bytes = none) := by
  induction widths generalizing bytes with
  | nil => simp [splitFields]
  | cons w ws ih =>
    obtain ⟨ok, short⟩ := ih (bytes.drop w)
    simp only [List.length_drop] at ok short
    simp only [List.sum_cons, splitFields]
    refine ⟨fun h => ?_, fun h => ?_⟩
    · obtain ⟨ns, hl, hs⟩ := ok (by omega)
      exact ⟨numberOf (bytes.take w) :: ns, by simp [hl], by simp [hs, show ¬bytes.length < w by omega]⟩
    · split
      · rfl
      · next hw => simp [short (by omega)]

/-- As many pairs are read as were asked for. -/
@[simp] theorem pairsOf_length (xWidth yWidth count : Nat) (bytes : List Byte) :
    (pairsOf xWidth yWidth count bytes).length = count := by
  induction count generalizing bytes with
  | zero => rfl
  | succ n ih => simp [pairsOf, ih]

end Sys2Proof

namespace Sys2Proof.Machine

/-! ### Service parts -/

/-- A tank is IN_SERVICE with a service part exactly where its record holds that part. -/
theorem State.serviceAt_eq_some {s : State} {i : Fin 32} {t : Tank} {v : Service} :
    s.serviceAt i = some (t, v) ↔ s.tanks[i] = some t ∧ t.service = some v := by
  simp [State.serviceAt, Option.bind_eq_some_iff]

/-- The service part of a tank whose record is known. -/
theorem State.serviceAt_of {s : State} {i : Fin 32} {t : Tank} {v : Service} (ht : s.tanks[i] = some t)
    (hv : t.service = some v) : s.serviceAt i = some (t, v) :=
  State.serviceAt_eq_some.2 ⟨ht, hv⟩

/-- An UNDEFINED tank is not IN_SERVICE. -/
theorem State.serviceAt_undefined {s : State} {i : Fin 32} (h : s.tanks[i] = none) : s.serviceAt i = none := by
  simp [State.serviceAt, h]

/-- An OFFLINE tank is not IN_SERVICE. -/
theorem State.serviceAt_offline {s : State} {i : Fin 32} {t : Tank} (h : s.tanks[i] = some t) (hv : t.service = none) :
    s.serviceAt i = none := by
  simp [State.serviceAt, h, hv]

/-- A property of a defined tank, where the record is known. -/
theorem State.tankIs_of {s : State} {i : Fin 32} {t : Tank} {p : Tank → Bool} (h : s.tanks[i] = some t) :
    s.tankIs p i = p t := by
  simp [State.tankIs, h]

/-- No property of a defined tank holds of an UNDEFINED one. -/
theorem State.tankIs_undefined {s : State} {i : Fin 32} {p : Tank → Bool} (h : s.tanks[i] = none) :
    s.tankIs p i = false := by
  simp [State.tankIs, h]

/-! ### Notices and lines -/

/-- Some notice is pending exactly where some entry holds a kind (R185). -/
theorem Notices.anyPending_iff (n : Notices) :
    n.anyPending = true ↔ n.allocation ≠ 0 ∨ (∃ i : Fin 32, n.tanks[i].kinds ≠ 0) ∨ ∃ k : Fin 8, n.catchments[k] ≠ 0 := by
  simp [Notices.anyPending, Vector.any_eq_true, or_assoc, Fin.exists_iff]

/-- RAIN_ALERT stands for a defined catchment at WARNING or SEVERE (R94). -/
theorem formRainAlert_iff (catchments : Vector (Option Catchment) 8) :
    Machine.formRainAlert catchments = true ↔
      ∃ k : Fin 8, ∃ c ∈ catchments[k], c.effective = .warning ∨ c.effective = .severe := by
  have heavy : ∀ a : AlertLevel, a.heavy = true ↔ a = .warning ∨ a = .severe := by
    intro a; cases a <;> decide
  simp only [Machine.formRainAlert, Vector.any_eq_true, Fin.exists_iff]
  refine exists_congr fun k => exists_congr fun hk => ?_
  cases hc : catchments[k] with
  | none => simp
  | some c => simp [heavy]

/-! ### Orders -/

/-- Nothing changes in a service part where the active order stays. -/
@[simp] theorem Service.activeChange_same (d : TankDef) (n : Nat) (v : Service) : v.activeChange d n n = v := by
  simp [Service.activeChange]

/-- A record without a change of its service part. -/
@[simp] theorem Tank.mapService_id (t : Tank) : t.mapService (fun v => v) = t := by
  cases t; simp [Tank.mapService]

/-- The same, where the change is that of an active order that stays. -/
@[simp] theorem Tank.mapService_same (t : Tank) (d : TankDef) (n : Nat) :
    t.mapService (Service.activeChange d n n) = t := by
  rw [show Service.activeChange d n n = fun v => v from funext fun v => v.activeChange_same d n, t.mapService_id]

/-- An entry after a write of all active orders (R126). -/
@[simp] theorem State.writeActive_orders (s : State) (new : Fin 32 → Nat) (i : Nat) (h : i < 32) :
    (s.writeActive new).orders[i] =
      { s.orders[i] with
        active := new ⟨i, h⟩, activeChanged := s.orders[i].activeChanged || new ⟨i, h⟩ != s.orders[i].active } := by
  simp only [State.writeActive, Fin.getElem_fin, Vector.getElem_ofFn, OrderEntry.withActive]
  split
  · next h => simp [h]
  · next h => simp [h]

/-- A tank's record after a write of all active orders: the effects of R130 on its service part. -/
@[simp] theorem State.writeActive_tanks (s : State) (new : Fin 32 → Nat) (i : Nat) (h : i < 32) :
    (s.writeActive new).tanks[i] =
      (s.tanks[i]).map fun t => t.mapService (Service.activeChange t.defn s.orders[i].active (new ⟨i, h⟩)) := by
  simp [State.writeActive]

/-- An entry after a write of all next orders. -/
@[simp] theorem State.writeNext_orders (s : State) (new : Fin 32 → Nat) (i : Nat) (h : i < 32) :
    (s.writeNext new).orders[i] = { s.orders[i] with next := new ⟨i, h⟩ } := by
  simp [State.writeNext]

/-- The entry of a tank after an immediate zeroing of the tanks at which `p` holds (R132). -/
@[simp] theorem State.zeroOrders_orders (s : State) (p : Fin 32 → Bool) (i : Nat) (h : i < 32) :
    (s.zeroOrders p).orders[i] = if p ⟨i, h⟩ then
      { s.orders[i] with
        active := 0, next := 0, activeChanged := s.orders[i].activeChanged || s.orders[i].active != 0 }
      else s.orders[i] := by
  simp only [State.zeroOrders, State.writeNext_orders, State.writeActive_orders]
  split
  · next h => simp [bne_comm]
  · next h => simp

/-- The record of a tank after an immediate zeroing (R130, R132). -/
@[simp] theorem State.zeroOrders_tanks (s : State) (p : Fin 32 → Bool) (i : Nat) (h : i < 32) :
    (s.zeroOrders p).tanks[i] = if p ⟨i, h⟩ then
      (s.tanks[i]).map fun t => t.mapService (Service.activeChange t.defn s.orders[i].active 0) else s.tanks[i] := by
  simp only [State.zeroOrders, State.writeNext_tanks, State.writeActive_tanks]
  split
  · rfl
  · next h => simp

/-- A withdrawal is a zeroing followed by the removal from the run order list. -/
@[simp] theorem State.withdraw_orders (s : State) (p : Fin 32 → Bool) :
    (s.withdraw p).orders = (s.zeroOrders p).orders := by
  simp [State.withdraw]

/-- The same for the records. -/
@[simp] theorem State.withdraw_tanks (s : State) (p : Fin 32 → Bool) :
    (s.withdraw p).tanks = (s.zeroOrders p).tanks := by
  simp [State.withdraw]

/-- Two states with the same fields are the same. -/
theorem State.ext_orders_tanks {s t : State} (ho : ∀ i : Fin 32, s.orders[i] = t.orders[i])
    (ht : ∀ i : Fin 32, s.tanks[i] = t.tanks[i]) (h : s = { t with orders := s.orders, tanks := s.tanks }) : s = t := by
  have ho' : s.orders = t.orders := Vector.ext fun i hi => ho ⟨i, hi⟩
  have ht' : s.tanks = t.tanks := Vector.ext fun i hi => ht ⟨i, hi⟩
  rw [h, ho', ht']

/-- Where `p` holds of no tank, a zeroing changes nothing. -/
theorem State.zeroOrders_none (s : State) (p : Fin 32 → Bool) (h : ∀ i, p i = false) : s.zeroOrders p = s :=
  State.ext_orders_tanks (fun i => by simp [h]) (fun i => by simp [h])
    (by simp [State.zeroOrders, State.writeActive, State.writeNext])

/-- Where `p` holds of no tank, a withdrawal changes nothing. -/
theorem State.withdraw_none (s : State) (p : Fin 32 → Bool) (h : ∀ i, p i = false) : s.withdraw p = s := by
  simp [State.withdraw, State.zeroOrders_none s p h, State.delist, h]

end Sys2Proof.Machine
end

