-- ==== Sys2Proof/Laws/Timebase.lean ====
section
/-! SUPPORT. The timers, the expiries that wait, and what the tick does with them, said once. -/

namespace Sys2Proof.Machine

/-! ### The list of all timers -/

/-- Every timer of the part is listed. -/
theorem mem_allExpiries (e : Expiry) : e ∈ allExpiries := by
  cases e <;> simp [allExpiries]

/-- No timer is listed twice. -/
theorem allExpiries_nodup : allExpiries.Nodup := by
  decide

/-! ### Waiting expiries -/

/-- A timer is due where it runs and the count has reached its expiry. -/
theorem due_iff (timer : Timer) (ds : Nat) : due timer ds = true ↔ ∃ n, timer = some n ∧ n ≤ ds := by
  cases timer <;> simp [due]

/-- An expiry waits where its timer is due (R189). -/
theorem State.mem_waiting {s : State} {e : Expiry} : e ∈ s.waiting ↔ ∃ n, s.timerOf e = some n ∧ n ≤ s.ds := by
  simp [State.waiting, mem_allExpiries, due_iff]

/-- No expiry waits twice. -/
theorem State.waiting_nodup (s : State) : s.waiting.Nodup :=
  allExpiries_nodup.filter _

/-- Whatever the order is, it is one of the waiting expiries (log 2). -/
theorem State.expiryOrder_perm (s : State) : s.expiryOrder.Perm s.waiting :=
  s.waiting.perm_insertionSort _

/-- With at most one expiry waiting there is nothing to order. -/
theorem State.expiryOrder_single {s : State} (h : s.waiting.length ≤ 1) : s.expiryOrder = s.waiting := by
  unfold State.expiryOrder
  match hw : s.waiting with
  | [] => rfl
  | [_] => rfl
  | _ :: _ :: _ => rw [hw] at h; simp at h

/-! ### The tick -/

/-- The tick takes the waiting expiries, each once and in some order, and then advances the count (R188, R189). -/
theorem tickEvent_spec (s : State) : ∃ order : List Expiry, order.Perm s.waiting ∧ order.Nodup ∧
    (∀ e, e ∈ order ↔ ∃ n, s.timerOf e = some n ∧ n ≤ s.ds) ∧
    tickEvent s = { order.foldl (fun t e => expiryEvent e t) s with
      ds := satAdd max32 s.ds 1, freeCount := s.freeCount + order.length } :=
  ⟨s.expiryOrder, s.expiryOrder_perm, (s.expiryOrder_perm.nodup_iff).2 s.waiting_nodup,
    fun _ => (s.expiryOrder_perm.mem_iff).trans State.mem_waiting,
    by simp [tickEvent, takeExpiries, s.expiryOrder_perm.length_eq]⟩

/-- With no expiry waiting the tick only advances the count (R188). -/
theorem tickEvent_of_none {s : State} (h : s.waiting = []) : tickEvent s = { s with ds := satAdd max32 s.ds 1 } := by
  simp [tickEvent, takeExpiries, State.expiryOrder, h]

/-! ### Expiries as commands -/

/-- The command of an expiry does what the expiry does, and nothing while RESET_N is asserted. -/
theorem exec_commandOf (e : Expiry) (s : State) : exec (commandOf e) s = .next (whileReleased (expiryEvent e) s) := by
  cases e <;> rfl

end Sys2Proof.Machine
end

