-- ==== Sys2Proof/Laws/Walks.lean ====
section
/-! SUPPORT. What the two walks of the Allocator do, said once: the grants of a computation (R116) and the cuts of a shed
(R120, R121). -/

namespace Sys2Proof.Machine

/-! ### Sums over the tanks -/

/-- A sum over the tanks, one tank taken out. -/
theorem sumTanks_eq (f : Fin 32 → Nat) : sumTanks f = ∑ i, f i := by
  simp [sumTanks, Finset.sum, Fin.univ_def]

/-- Where one tank's quantity changes, the sum changes by it. -/
theorem sumTanks_replace (f g : Fin 32 → Nat) (i : Fin 32) (h : ∀ j, j ≠ i → g j = f j) :
    sumTanks g + f i = sumTanks f + g i := by
  rw [sumTanks_eq, sumTanks_eq, ← Finset.add_sum_erase _ f (Finset.mem_univ i),
    ← Finset.add_sum_erase _ g (Finset.mem_univ i), Finset.sum_congr rfl fun j hj => h j (Finset.ne_of_mem_erase hj)]
  ring

/-- No tank's quantity exceeds the sum. -/
theorem le_sumTanks (f : Fin 32 → Nat) (i : Fin 32) : f i ≤ sumTanks f := by
  rw [sumTanks_eq]
  exact Finset.single_le_sum (f := f) (fun _ _ => Nat.zero_le _) (Finset.mem_univ i)

/-- A sum of nothing. -/
theorem sumTanks_zero (f : Fin 32 → Nat) (h : ∀ i, f i = 0) : sumTanks f = 0 := by
  rw [sumTanks_eq]; exact Finset.sum_eq_zero fun i _ => h i

/-! ### Grants -/

/-- A grant never exceeds what remains, nor the demand, and is 0 or at least Rmin (R116). -/
theorem grantAmount_bounds (d remaining guardBand active rMin : Nat) :
    grantAmount d remaining guardBand active rMin ≤ remaining ∧ grantAmount d remaining guardBand active rMin ≤ d ∧
      (grantAmount d remaining guardBand active rMin = 0 ∨ rMin ≤ grantAmount d remaining guardBand active rMin) := by
  unfold grantAmount
  simp only
  split
  · split <;> omega
  · split <;> omega

/-- What a tank is granted never exceeds what remains. -/
theorem State.grantFor_le (s : State) (i : Fin 32) (remaining : Nat) : s.grantFor i remaining ≤ remaining := by
  unfold State.grantFor
  split
  · exact (grantAmount_bounds _ _ _ _ _).1
  · exact Nat.zero_le _

/-- A step of the grants writes one tank's amount and no other. -/
theorem State.grantStep_amounts (s : State) (w : Walk) (k : Fin 32) :
    (s.grantStep w k).amounts[k] = s.grantFor k w.account ∧ ∀ j : Fin 32, j ≠ k → (s.grantStep w k).amounts[j] = w.amounts[j] := by
  refine ⟨by simp [State.grantStep], fun j hj => ?_⟩
  have : ¬k.val = j.val := fun e => hj (Fin.ext e.symm)
  simp [State.grantStep, this]

/-- A walk of the grants leaves a tank outside its order alone. -/
theorem State.grantFold_other (s : State) (order : List (Fin 32)) (w : Walk) {j : Fin 32} (h : j ∉ order) :
    (order.foldl s.grantStep w).amounts[j] = w.amounts[j] := by
  induction order generalizing w with
  | nil => rfl
  | cons k rest ih =>
    rw [List.mem_cons, not_or] at h
    rw [List.foldl_cons, ih _ h.2, (s.grantStep_amounts w k).2 j h.1]

/-- In an order without repetition each tank has its grant out of what the tanks before it have left over (R116). -/
theorem State.grantFold_split (s : State) (before after : List (Fin 32)) (i : Fin 32) (w : Walk)
    (h : (before ++ i :: after).Nodup) : ∃ r : Walk, r = (before ++ i :: after).foldl s.grantStep w ∧
      r.amounts[i] = s.grantFor i (w.account - (before.map fun j => r.amounts[j]).sum) := by
  induction before generalizing w with
  | nil =>
    rw [List.nil_append, List.nodup_cons] at h
    exact ⟨_, rfl, by simp [s.grantFold_other _ _ h.1, (s.grantStep_amounts w i).1]⟩
  | cons k rest ih =>
    rw [List.cons_append, List.nodup_cons] at h
    obtain ⟨r, e, hr⟩ := ih (s.grantStep w k) h.2
    refine ⟨r, e, ?_⟩
    have hk : r.amounts[k] = s.grantFor k w.account := by
      rw [e, s.grantFold_other _ _ h.1, (s.grantStep_amounts w k).1]
    rw [hr, List.map_cons, List.sum_cons, hk, ← Nat.sub_sub]
    rfl

/-- The walk of the grants in an order without repetition: the grants and what remains make up the budget, a tank of the order
has its grant out of some remaining budget, and every other tank has 0. -/
theorem State.grantWalk_spec (s : State) (order : List (Fin 32)) (budget : Nat) (h : order.Nodup) :
    (sumTanks fun i => (s.grantWalk order budget).amounts[i]) + (s.grantWalk order budget).account = budget ∧
    (∀ i : Fin 32, i ∉ order → (s.grantWalk order budget).amounts[i] = 0) ∧
    ∀ i ∈ order, ∃ remaining ≤ budget, (s.grantWalk order budget).amounts[i] = s.grantFor i remaining := by
  suffices key : ∀ (order : List (Fin 32)) (w : Walk), order.Nodup → (∀ i ∈ order, w.amounts[i] = 0) →
      (sumTanks fun i => (order.foldl s.grantStep w).amounts[i]) + (order.foldl s.grantStep w).account =
        (sumTanks fun i => w.amounts[i]) + w.account ∧
      (∀ i : Fin 32, i ∉ order → (order.foldl s.grantStep w).amounts[i] = w.amounts[i]) ∧
      ∀ i ∈ order, ∃ remaining ≤ w.account, (order.foldl s.grantStep w).amounts[i] = s.grantFor i remaining by
    have zero : (sumTanks fun i : Fin 32 => (Vector.replicate 32 0)[i]) = 0 := sumTanks_zero _ fun i => by simp
    obtain ⟨sum, other, granted⟩ := key order { amounts := Vector.replicate 32 0, account := budget } h (by simp)
    refine ⟨?_, fun i hi => ?_, granted⟩
    · rw [State.grantWalk, sum]; simp only; omega
    · rw [State.grantWalk, other i hi]; simp
  intro order
  induction order with
  | nil => intro w _ _; simp
  | cons k rest ih =>
    intro w hnd hz
    rw [List.nodup_cons] at hnd
    have hg := s.grantFor_le k w.account
    obtain ⟨hk, hj⟩ := s.grantStep_amounts w k
    obtain ⟨sum, other, granted⟩ := ih (s.grantStep w k) hnd.2
      fun j hjr => by rw [hj j fun e => hnd.1 (e ▸ hjr)]; exact hz j (by simp [hjr])
    rw [List.foldl_cons]
    refine ⟨?_, fun i hi => ?_, fun i hi => ?_⟩
    · rw [sum]
      have hw : w.amounts[k] = 0 := hz k (by simp)
      have := sumTanks_replace (fun i => w.amounts[i]) (fun i => (s.grantStep w k).amounts[i]) k hj
      simp only [hw, hk] at this
      have ha : (s.grantStep w k).account = w.account - s.grantFor k w.account := rfl
      omega
    · rw [List.mem_cons, not_or] at hi
      rw [other i hi.2, hj i hi.1]
    · rcases List.mem_cons.1 hi with rfl | hi
      · exact ⟨w.account, le_rfl, by rw [other i hnd.1, hk]⟩
      · obtain ⟨r, hr, e⟩ := granted i hi
        exact ⟨r, hr.trans (Nat.sub_le _ _), e⟩

/-! ### Cuts -/

/-- What one step of a shed leaves of the tank it looks at (R120). -/
theorem shedStep_self (rMin : Fin 32 → Nat) (allowance : Nat) (w : Walk) (k : Fin 32) :
    (w.account ≤ allowance → shedStep rMin allowance w k = w) ∧
    (shedStep rMin allowance w k).amounts[k] ≤ w.amounts[k] ∧
    ((shedStep rMin allowance w k).amounts[k] ≠ w.amounts[k] →
      (shedStep rMin allowance w k).amounts[k] = 0 ∨ rMin k ≤ (shedStep rMin allowance w k).amounts[k]) ∧
    (shedStep rMin allowance w k).account =
      w.account - (w.amounts[k] - (shedStep rMin allowance w k).amounts[k]) ∧
    (allowance < (shedStep rMin allowance w k).account → (shedStep rMin allowance w k).amounts[k] = 0) ∧
    ∀ j : Fin 32, j ≠ k → (shedStep rMin allowance w k).amounts[j] = w.amounts[j] := by
  have other : ∀ (n : Nat) (j : Fin 32), j ≠ k → (w.amounts.set k n)[j] = w.amounts[j] := by
    intro n j hj
    have : ¬k.val = j.val := fun e => hj (Fin.ext e.symm)
    simp [this]
  have self : ∀ n : Nat, (w.amounts.set k n)[k] = n := by simp
  unfold shedStep
  simp only
  split
  · next h => refine ⟨fun _ => rfl, le_rfl, fun hne => absurd rfl hne, by omega, fun ha => by omega, fun _ _ => rfl⟩
  · next h =>
    rw [not_or] at h
    simp only [self]
    refine ⟨fun ha => absurd ha h.1, ?_, fun _ => ?_, trivial, fun ha => ?_, fun j hj => other _ j hj⟩
    · split <;> omega
    · split <;> omega
    · split at ha <;> split <;> omega

/-- Nothing is cut any more once the account fits the allowance. -/
theorem shedFold_done (rMin : Fin 32 → Nat) (allowance : Nat) (order : List (Fin 32)) (w : Walk)
    (h : w.account ≤ allowance) : order.foldl (shedStep rMin allowance) w = w := by
  induction order with
  | nil => rfl
  | cons k rest ih => rw [List.foldl_cons, (shedStep_self rMin allowance w k).1 h, ih]

/-- A walk of cuts over an order of automatic tanks, starting with the sum of the automatic amounts (R120, R121): nothing rises, a
tank outside the order keeps its amount, a cut ends at 0 or at Rmin or above, every amount of the order is 0 where the account
still exceeds the allowance, and in an order without repetition a tank is cut only after every tank before it has come to 0. -/
theorem shedFold_spec (rMin : Fin 32 → Nat) (allowance : Nat) (automatic : Fin 32 → Bool) (order : List (Fin 32)) (w : Walk)
    (hauto : ∀ i ∈ order, automatic i = true)
    (hsum : w.account = sumTanks fun i => if automatic i then w.amounts[i] else 0) :
    ∃ r : Walk, r = order.foldl (shedStep rMin allowance) w ∧
      (r.account = sumTanks fun i => if automatic i then r.amounts[i] else 0) ∧
      (∀ i : Fin 32, i ∉ order → r.amounts[i] = w.amounts[i]) ∧
      (∀ i : Fin 32, r.amounts[i] ≤ w.amounts[i] ∧
        (r.amounts[i] ≠ w.amounts[i] → r.amounts[i] = 0 ∨ rMin i ≤ r.amounts[i])) ∧
      (allowance < r.account → ∀ i ∈ order, r.amounts[i] = 0) ∧
      (order.Nodup → ∀ i j, [j, i].Sublist order → r.amounts[i] ≠ w.amounts[i] → r.amounts[j] = 0) := by
  induction order generalizing w with
  | nil => exact ⟨w, rfl, hsum, fun _ _ => rfl, fun _ => ⟨le_rfl, fun h => absurd rfl h⟩, by simp, by simp⟩
  | cons k rest ih =>
    obtain ⟨-, le, kept, account, zero, other⟩ := shedStep_self rMin allowance w k
    have hk : automatic k = true := hauto k (by simp)
    have hin : w.amounts[k] ≤ w.account := by
      rw [hsum]
      simpa [hk] using le_sumTanks (fun i => if automatic i then w.amounts[i] else 0) k
    have hsum' : (shedStep rMin allowance w k).account =
        sumTanks fun i => if automatic i then (shedStep rMin allowance w k).amounts[i] else 0 := by
      have := sumTanks_replace (fun i => if automatic i then w.amounts[i] else 0)
        (fun i => if automatic i then (shedStep rMin allowance w k).amounts[i] else 0) k
        fun j hj => by simp only [other j hj]
      simp only [hk, if_true] at this
      rw [account, hsum]
      rw [hsum] at hin
      omega
    obtain ⟨r, e, sum, out, each, full, before⟩ := ih (shedStep rMin allowance w k) (fun i hi => hauto i (by simp [hi])) hsum'
    have stopped : allowance < r.account → allowance < (shedStep rMin allowance w k).account := by
      intro ha
      by_contra hn
      rw [shedFold_done _ _ _ _ (Nat.le_of_not_lt hn)] at e
      exact hn (e ▸ ha)
    refine ⟨r, e, sum, fun i hi => ?_, fun i => ?_, fun ha i hi => ?_, fun nodup i j hij hne => ?_⟩
    · rw [List.mem_cons, not_or] at hi
      rw [out i hi.2, other i hi.1]
    · by_cases hi : i = k
      · subst hi
        refine ⟨(each i).1.trans le, fun hne => ?_⟩
        by_cases same : r.amounts[i] = (shedStep rMin allowance w i).amounts[i]
        · rw [same]; exact kept (same ▸ hne)
        · exact (each i).2 same
      · rw [← other i hi]; exact each i
    · rcases List.mem_cons.1 hi with rfl | hi
      · exact Nat.le_zero.1 ((each i).1.trans (zero (stopped ha)).le)
      · exact full ha i hi
    · rw [List.nodup_cons] at nodup
      rcases List.sublist_cons_iff.1 hij with h | ⟨l, hl, h⟩
      · have hik : i ≠ k := fun e => nodup.1 (e ▸ h.subset (by simp))
        exact before nodup.2 i j h (by rwa [other i hik])
      · obtain ⟨rfl, rfl⟩ := List.cons.inj hl
        have hik : i ≠ j := fun e => nodup.1 (e ▸ h.subset (by simp))
        refine Nat.le_zero.1 ((each j).1.trans (zero (Nat.lt_of_not_le fun hle => hne ?_)).le)
        rw [e, shedFold_done _ _ _ _ hle, other i hik]

/-- A walk of cuts leaves a tank outside its order alone. -/
theorem shedFold_other (rMin : Fin 32 → Nat) (allowance : Nat) (order : List (Fin 32)) (w : Walk) {j : Fin 32} (h : j ∉ order) :
    (order.foldl (shedStep rMin allowance) w).amounts[j] = w.amounts[j] := by
  induction order generalizing w with
  | nil => rfl
  | cons k rest ih =>
    rw [List.mem_cons, not_or] at h
    rw [List.foldl_cons, ih _ h.2, (shedStep_self rMin allowance w k).2.2.2.2.2 j h.1]

/-- In an order without repetition each tank is cut on the account that the cuts before it have left (R120). -/
theorem shedFold_split (rMin : Fin 32 → Nat) (allowance : Nat) (before after : List (Fin 32)) (i : Fin 32) (w : Walk)
    (h : (before ++ i :: after).Nodup) : ∃ r : Walk, r = (before ++ i :: after).foldl (shedStep rMin allowance) w ∧
      r.amounts[i] = (shedStep rMin allowance
        { w with account := w.account - (before.map fun j => w.amounts[j] - r.amounts[j]).sum } i).amounts[i] := by
  induction before generalizing w with
  | nil =>
    rw [List.nil_append, List.nodup_cons] at h
    exact ⟨_, rfl, by simp [shedFold_other _ _ _ _ h.1]⟩
  | cons k rest ih =>
    rw [List.cons_append, List.nodup_cons] at h
    obtain ⟨-, -, -, account, -, other⟩ := shedStep_self rMin allowance w k
    obtain ⟨r, e, hr⟩ := ih (shedStep rMin allowance w k) h.2
    refine ⟨r, e, ?_⟩
    have hk : r.amounts[k] = (shedStep rMin allowance w k).amounts[k] := by rw [e, shedFold_other _ _ _ _ h.1]
    have hi : i ≠ k := fun e => h.1 (by simp [e])
    have hrest : (rest.map fun j => (shedStep rMin allowance w k).amounts[j] - r.amounts[j]) =
        rest.map fun j => w.amounts[j] - r.amounts[j] :=
      List.map_congr_left fun j hj => by rw [other j fun e => h.1 (by simp [← e, hj])]
    rw [hr, hrest, account, List.map_cons, List.sum_cons, hk, ← Nat.sub_sub]
    have step : ∀ (a b : Vector Nat 32) (n : Nat), a[i] = b[i] → (shedStep rMin allowance { amounts := a, account := n } i).amounts[i] =
        (shedStep rMin allowance { amounts := b, account := n } i).amounts[i] := by
      intro a b n hab
      simp only [Fin.getElem_fin] at hab
      simp only [shedStep, Fin.getElem_fin, hab]
      split
      · exact hab
      · split <;> simp
    exact step _ _ _ (other i hi)

end Sys2Proof.Machine
end

