-- ==== Sys2Proof/Tests/Slice0.lean ====
section
/-! SUPPORT. Tests: ill-formed commands that WellFormed refuses, frames written out byte by byte from section 10.6, single steps of
the spec's worked examples, and for every statement with hypotheses a concrete state and operands that meet them. -/

namespace Sys2Proof.Tests

open Sys2Proof.Machine

/-! ### Well-formedness -/

/-- A payload of `n` bytes. -/
def payload (n : Nat) : List Byte :=
  List.replicate n 0

theorem payload_length (n : Nat) : (payload n).length = n := by simp [payload]

/-- One ill-formed command for each check. -/
def illFormed : List Instr :=
  [.fetch (.ends 1), .requestFrame (.ends [20]), .requestFrame (.ends [0, 20]), .setLimits 256 [], .setLimits 1 (payload 255),
    .setBank 256 0, .setBank 0 65536, .setNoticeMask 256 0 0, .setNoticeMask 0 256 0, .setNoticeMask 0 0 256,
    .defineTank 256 ⟨0, 0, 0, 0, 0, 0, 0, 0, 0, 0, 0, 0, 0, 0, 0, 0⟩,
    .defineTank 0 ⟨256, 0, 0, 0, 0, 0, 0, 0, 0, 0, 0, 0, 0, 0, 0, 0⟩,
    .defineTank 0 ⟨0, 0, 0, 0, 65536, 0, 0, 0, 0, 0, 0, 0, 0, 0, 0, 0⟩,
    .loadStageTable 256 0 [], .loadStageTable 0 256 [], .loadStageTable 0 0 (payload 254),
    .loadRatingTable 256 0 [], .loadRatingTable 0 256 [], .loadRatingTable 0 0 (payload 254),
    .placeInService 256, .takeOffline 256, .retireTank 256, .clearFault 256, .readTank 256, .readSpill 256,
    .defineGauge 256 0 0 0, .defineGauge 0 256 0 0, .defineGauge 0 0 256 0, .defineGauge 0 0 0 4294967296,
    .retireGauge 256, .readGauge 256, .defineCatchment 256 0 [], .defineCatchment 0 256 [],
    .defineCatchment 0 0 (payload 254), .retireCatchment 256, .ackAlert 256, .readCatchment 256,
    .reportLevel 256 0 0, .reportLevel 0 65536 0, .reportLevel 0 0 65536, .setMode 256 0 0, .setMode 0 256 0,
    .setMode 0 0 65536, .setInhibit 256 0, .setInhibit 0 256, .hold 4294967296, .setForecast 256 0 0,
    .setForecast 0 256 0, .setForecast 0 0 4294967296, .resetCounts 255]

theorem test_ill_formed_commands_are_refused : illFormed.all (fun c => !c.wellFormed) = true := by
  simp [illFormed, Instr.wellFormed, TankFields.wellFormed, payload_length]

/-! ### Frames (section 10.6) -/

theorem test_set_bank_frame : judgeFrame [2, 9, 3, 5, 3, 0x84] = .request 9 (.setBank 5 900) := by decide

theorem test_report_level_frame :
    judgeFrame [14, 1, 5, 11, 0x06, 0xC2, 0x00, 0x14] = .request 1 (.reportLevel 11 1730 20) := by decide

theorem test_hold_frame : judgeFrame [19, 4, 4, 0, 0, 0x0E, 0x10] = .request 4 (.hold 3600) := by decide

theorem test_define_gauge_frame :
    judgeFrame [10, 2, 7, 3, 20, 5, 0, 0, 0x07, 0x08] = .request 2 (.defineGauge 3 20 5 1800) := by decide

theorem test_reset_counts_all_frame : judgeFrame [25, 0, 1, 255] = .request 0 .resetCountsAll := by decide

theorem test_truncated_frame : judgeFrame [36, 8, 2, 0] = .refused 8 .badLength := by decide

theorem test_no_word_spells_a_command : decodeTableWord 8 2 = none := by decide

/-! ### A small site -/

/-- The next state, or the state itself where there is none. -/
def after (c : Instr) (s : State) : State :=
  match exec c s with
  | .next t => t
  | .fault _ => s
  | .refused _ => s

/-- The state with this request in hand under tag 7. -/
def holding (c : Instr) (s : State) : State :=
  { s with port := .busy (.request 7 c) }

/-- The reply that a request leaves. -/
def replyOf (c : Instr) (s : State) : Option Reply :=
  match (after c (holding c s)).port with
  | .reply r => some r
  | .busy _ => none
  | .idle => none

/-- The stage-storage table of section 2.3's worked example. -/
def stage : List Point := [⟨0, 0⟩, ⟨1000, 1200⟩, ⟨2500, 4700⟩, ⟨4000, 9000⟩]

/-- The spill rating table of section 9.12. -/
def rating : List Point := [⟨0, 0⟩, ⟨100, 150⟩, ⟨300, 900⟩]

/-- The tank definition of section 9.12, the rest chosen. -/
def tankDef : TankDef :=
  { catchment := 2, zone := 1, combine := .or, basePriority := 2, dryLevel := 300, crestLevel := 2000, endHysteresis := 100,
    rMax := 300, rMin := 80, fallMin := 20, stallCount := 4, faultReaction := .retry, reportTimeout := 300, lostLimit := 2,
    quietTime := 600, confirmTime := 120 }

/-- The spill state of a tank that never spilled. -/
def book : SpillBook :=
  { counters := { begun := 0, counted := 0, seconds := 0, litres := 0, restricted := 0 }, window := none, lastClose := none }

/-- A tank just loaded with both tables. -/
def idleTank : Tank :=
  { defn := tankDef, stage := some { points := stage, vDry := 360, vCrest := 3533 }, rating := some rating
    inForce := { mode := .auto, value := 0 }, pendingMode := { mode := .auto, value := 0 }, softInhibit := false
    inhibited := false, book := book, service := none }

/-- The open event of section 9.12 at 10220. -/
def openSpill : SpillEvent :=
  { start := 10100, accountedFrom := 10100, litres := 14400, peakHead := 200, previousRate := 525, previousReport := 10220
    mark := .counted, restricted := false, alertAtOpen := .warning, peakAlert := .warning, quietStart := none }

/-- A tank's service part right after a report of 1730 mm at 9000. -/
def service : Service :=
  { op := .storing
    level := { lastLevel := some 1730, lastReport := some 9000, clamped := false, aboveTable := false, stale := false
               volume := some 2903, previous := some { volume := 2903, time := 9000 }, netRate := none
               timeToSpill := .never, imminent := false, staleTimer := some 111000, expiries := 1 }
    supervisor := { stallCounter := 0, goodCounter := 0, snapshot := none, reportMark := true, stall := false
                    levelLost := false }
    spilling := .quiet }

/-- A defined gauge, WET after the third tip of section 4.9. -/
def gauge : Gauge :=
  { depthPerTip := 20, debounce := 5, dryGap := 1800, storm := .wet, stormDepth := 60, tips := 3, lastTip := some 101800
    interval := some 600, tipDepth := some 20, dryTimer := some 119800 }

/-- A DRY gauge that never tipped. -/
def dryGauge : Gauge :=
  { depthPerTip := 20, debounce := 5, dryGap := 1800, storm := .dry, stormDepth := 0, tips := 0, lastTip := none
    interval := none, tipDepth := none, dryTimer := none }

/-- The catchment of section 5.12, at NONE. -/
def catchment : Catchment :=
  { defn := { gauges := [3, 5], iWatch := 50, iWarning := 150, iSevere := 300, dWatch := 0, dWarning := 2000, dSevere := 0
              hysteresis := 20, holdDown := 300 }
    lastIntensity := 0, lastDepth := 0, gaugeLevel := .noAlert, holdStart := none, floor := none, effective := .noAlert
    acknowledged := false, raised := none, peak := 0 }

/-- The catchment of section 5.12 at 5280, SEVERE with a running hold-down. -/
def severe : Catchment :=
  { catchment with
    gaugeLevel := .severe, holdStart := some 5280, effective := .severe, acknowledged := true, raised := some 5160
    peak := 410, lastIntensity := 270, lastDepth := 2400 }

/-- A WARNING floor until 11500. -/
def floored : Catchment :=
  { catchment with floor := some { level := .warning, expiry := 11500, timer := 115000 }, effective := .warning
                   acknowledged := true }

/-- Device time 11000 s, no timer due; tank 4 OFFLINE, tank 9 IN_SERVICE, tank 14 with an open spill; gauges 3 and 5; catchments 2 and 3. -/
def site : State :=
  { State.reset with
    ds := 110000
    tanks := ((State.reset.tanks.set 4 (some idleTank)).set 9 (some { idleTank with service := some service })).set 14
      (some { idleTank with service := some { service with
        spilling := .event openSpill, level := { service.level with lastReport := some 10220 } } })
    alerts := { State.reset.alerts with rainAlert := true, evalTimer := some 110300 }
    gauges := (State.reset.gauges.set 3 (some gauge)).set 5 (some dryGauge)
    catchments := (State.reset.catchments.set 2 (some catchment)).set 3 (some floored)
    alloc := { State.reset.alloc with banks := State.reset.alloc.banks.set 0 900, budget := 900 } }

/-- The site at another count. -/
def siteAt (ds : Nat) : State :=
  { site with ds := ds }

/-! ### Steps of the worked examples -/

/-- Section 2.3: a report between two points, at the last point and above it. -/
theorem test_volume_from_one_table :
    interpolate stage 1730 = 2903 ∧ interpolate stage 4200 = 9000 ∧ interpolate stage 0 = 0 ∧
      aboveLast stage 4000 = false ∧ aboveLast stage 4200 = true := by decide

/-- Section 2.4: the sample, the smoothing with truncation toward zero, and the clamp. -/
theorem test_net_rate_arithmetic :
    rateSample 2951 2903 60 = 80 ∧ smoothRate (some 40) 80 = 50 ∧ smoothRate (some 0) (-7) = -1 ∧
      smoothRate (some 1) (-2) = 1 ∧ rateSample 40000 0 60 = 65535 := by decide

/-- Section 4.9, steps 1, 5, 6, 7, 8 and 11. -/
theorem test_shower :
    (dryGauge.tip 100000).dryTimer = some 118000 ∧ (gauge.tip 102100).stormDepth = 80 ∧
      (gauge.tip 102100).interval = some 300 ∧ (gauge.tip 102100).accepts 102104 = false ∧
      (gauge.tip 102100).intensity 102400 = 240 ∧ (gauge.tip 102100).intensity 103000 = 80 ∧
      (gauge.tip 102100).endStorm.lastTip = some 102100 := by decide

/-- Section 5.12 at 5040 and 5580: a rise from NONE, and one step down after the hold-down. -/
theorem test_alert_rises_and_falls :
    (catchment.evaluate 5040 60 300).catchment.effective = .watch ∧ (catchment.evaluate 5040 60 300).posts = [.raised] ∧
      (severe.evaluate 5340 290 2500).catchment.holdStart = none ∧
      (severe.evaluate 5580 250 2600).catchment.gaugeLevel = .warning ∧
      (severe.evaluate 5580 250 2600).catchment.holdStart = some 5580 ∧
      (severe.evaluate 5580 250 2600).posts = [.lowered] := by decide

/-- Section 9.12 at 10100, 10220 and 11000: a candidate, its opening, and the gap limited to the report timeout. -/
theorem test_spill_opens :
    (spillReport tankDef rating 24 false .warning 2060 10100 .quiet book).spilling =
        .candidate { start := 10100, litres := 0, previousRate := 90, previousReport := 10100, peakHead := 60 } ∧
      (spillReport tankDef rating 24 false .warning 2200 10220 (.candidate
        { start := 10100, litres := 5400, previousRate := 150, previousReport := 10160, peakHead := 100 }) book).spilling =
        .event openSpill ∧
      (spillReport tankDef rating 24 false .warning 2050 11000 (.event
        { openSpill with litres := 108900, previousRate := 337, previousReport := 10400, restricted := true }) book).spilling =
        .event { openSpill with litres := 210000, previousRate := 75, previousReport := 11000, restricted := true } := by
  decide

/-- Section 9.12 at 12000: the close of the first spill. -/
theorem test_spill_closes :
    (spillReport tankDef rating 24 false .warning 1750 12000 (.event
      { openSpill with litres := 217500, previousRate := 0, previousReport := 11700, restricted := true
                       quietStart := some 11400 })
      { book with counters := { book.counters with begun := 1, counted := 1 }
                  window := some { start := 10100, stop := 96500 } }).book =
      { counters := { begun := 1, counted := 1, seconds := 1300, litres := 217500, restricted := 1 }
        window := some { start := 10100, stop := 96500 }
        lastClose := some { mark := .ended, start := 10100, stop := 11400, seconds := 1300, litres := 217500
                            restricted := true } } := by decide

/-- Section 8.6 at 7000: the end is moved, but not past the limit. -/
theorem test_hold_extended_to_its_limit :
    (after (.hold 3000) (holding (.hold 3000)
      { State.reset with ds := 70000, guard := { State.reset.guard with hold := .held 6000 9600 7800 78000 } })).guard.hold =
      .held 6000 9600 9600 96000 := by decide +kernel

/-- Section 8.6 at 9700: an OVERRIDDEN hold is locked. -/
theorem test_overridden_hold_is_locked :
    replyOf (.hold 900) { State.reset with ds := 97000, guard := { State.reset.guard with hold := .overridden 6000 9600 } } =
      some { tag := 7, status := .holdLocked, payload := [] } := by decide

/-- IDENTIFY answers family 3210 in two bytes (R190). -/
theorem test_identify :
    replyOf .identify State.reset = some { tag := 7, status := .ok, payload := [0x0C, 0x8A, 1, 1, 32, 12, 8] } := by decide

/-- A report older than the last one is refused (R23). -/
theorem test_old_report : (replyOf (.reportLevel 9 1800 3000) site).map Reply.status = some .oldReport := by decide +kernel

/-- A status poll shifts out one byte, with ATTN in bit 3 (R180). -/
theorem test_status_poll :
    (after .statusPoll { State.reset with overrun := true, notices := { State.reset.notices with attn := true } }).shiftedOut =
      [12] := by decide

/-- A FETCH without a stored reply gives NOTHING under tag 0 (R183). -/
theorem test_fetch_of_nothing : (after (.fetch (.ends 5)) State.reset).shiftedOut = [0, 0, 1, 0, 0] := by decide

/-- A frame begun in BUSY and ended after the reply is stored shows BUSY and is taken (R180, R182). -/
theorem test_frame_begun_in_busy :
    (after (.requestFrame (.ends [35, 9, 0])) (after .identify (after (.requestFrame .begins)
      (holding .identify State.reset)))).port = .busy (.request 9 .identify) ∧
    (after (.requestFrame (.ends [35, 9, 0])) (after .identify (after (.requestFrame .begins)
      (holding .identify State.reset)))).shiftedOut.head? = some 1 := by decide

/-- A FETCH begun in BUSY gives NOTHING and keeps the reply stored meanwhile (R183). -/
theorem test_fetch_begun_in_busy :
    (after (.fetch (.ends 4)) (after .identify (after (.fetch .begins) (holding .identify State.reset)))).shiftedOut =
        [1, 0, 1, 0] ∧
      (after (.fetch (.ends 4)) (after .identify (after (.fetch .begins) (holding .identify State.reset)))).port =
        .reply { tag := 7, status := .ok, payload := [0x0C, 0x8A, 1, 1, 32, 12, 8] } := by decide

/-- An expiry is taken at the count its timer gives and not later: the tick that ends this count takes it first (R189). -/
theorem test_tick_takes_expiry :
    (siteAt 110300).waiting = [.evaluation] ∧ (after .decisecondTick (siteAt 110300)).ds = 110301 ∧
      (after .decisecondTick (siteAt 110300)).alerts.evalTimer = some 110900 ∧
      (after .decisecondTick site).alerts.evalTimer = some 110300 := by decide +kernel

/-- The floor's remaining seconds are all ones without a floor, and at a whole number of seconds the exact value (R97, section 10.6). -/
theorem test_floor_seconds :
    (replyOf (.readCatchment 2) site).map (fun r => (r.payload.drop 47).take 4) = some [255, 255, 255, 255] ∧
      (replyOf (.readCatchment 3) site).map (fun r => (r.payload.drop 47).take 4) = some [0, 0, 1, 0xF4] := by
  decide +kernel

/-! ### Witnesses: a state and operands that meet each statement's hypotheses, at the boundaries of its clauses -/

theorem holding_takes (c : Instr) (s : State) (h : s.resetAsserted = false) : (holding c s).takes 7 c := ⟨h, rfl⟩

/-- Every request can be the one in hand, at the site and right after reset. -/
theorem test_witness_takes (c : Instr) : (holding c site).takes 7 c ∧ (holding c State.reset).takes 7 c :=
  ⟨holding_takes c _ rfl, holding_takes c _ rfl⟩

theorem test_witness_frameSpellsRequest :
    (Instr.reportLevel 255 65535 65535).wellFormed = true ∧
      (Instr.reportLevel 255 65535 65535).frame 9 = some [14, 9, 5, 255, 255, 255, 255, 255] ∧
      Instr.resetCountsAll.wellFormed = true ∧ Instr.resetCountsAll.frame 9 = some [25, 9, 1, 255] := by decide

theorem test_witness_portJudgesFrames :
    ([0, 0] : List Byte).length < (3 : Byte).toNat ∧ (3 : Byte).toNat ≤ ([0, 0, 0] : List Byte).length ∧
      35 < (36 : Byte).toNat ∧ (35 : Byte).toNat ≤ 35 ∧ ¬admitsLength 2 2 ∧ admitsLength 2 3 ∧ ¬admitsLength 2 4 ∧
      ¬admitsLength 1 0 ∧ admitsLength 1 1 ∧ ¬admitsLength 12 1 ∧ admitsLength 12 2 ∧ admitsLength 35 0 ∧
      ¬admitsLength 35 1 := by
  simp [admitsLength]

/-- Two bytes are the shortest frame; the port is found idle, with a reply and busy, and the transaction absent, begun and disregarded. -/
theorem test_witness_transactions :
    State.reset.resetAsserted = false ∧ 2 ≤ ([35, 0] : List Byte).length ∧ ([35, 0] : List Byte).head? ≠ some 0 ∧
      State.reset.port = .idle ∧ (holding .identify State.reset).port = .busy (.request 7 .identify) ∧
      (after .identify (holding .identify State.reset)).port =
        .reply { tag := 7, status := .ok, payload := [0x0C, 0x8A, 1, 1, 32, 12, 8] } ∧
      ({ State.reset with port := .busy (.refused 3 .badLength) } : State).port = .busy (.refused 3 .badLength) ∧
      State.reset.transaction = .absent ∧
      (after (.fetch .begins) State.reset).transaction = .begun { port := .idle, overrun := false, attn := false } ∧
      (after (.fetch .begins) (State.held Pins.low)).transaction = .disregarded ∧
      (State.held Pins.low).resetAsserted = true := by
  decide

theorem test_witness_requestsAnswerInHand :
    Instr.identify.codeAndPayload.isSome ∧ (holding .identify State.reset).takes 7 .identify ∧
      ∀ tag, ¬State.reset.takes tag .identify :=
  ⟨rfl, holding_takes _ _ rfl, fun _ h => Port.noConfusion h.2⟩

theorem test_witness_releaseTakesTheLines :
    ∃ pins : Pins, ((5 : Fin 8).val = (if pins.capSel[0] then 1 else 0) + (if pins.capSel[1] then 2 else 0) +
      (if pins.capSel[2] then 4 else 0)) ∧ pins.intakeHigh = true ∧
      (State.held pins).transaction = .absent ∧ (after (.fetch .begins) (State.held pins)).transaction = .disregarded :=
  ⟨{ Pins.low with capSel := #v[true, false, true], intakeHigh := true }, by decide⟩

theorem test_witness_assertedReset :
    (State.held Pins.low).resetAsserted = true ∧ Instr.decisecondTick ≠ .powerOn ∧ Instr.decisecondTick ≠ .resetNAsserted ∧
      Instr.decisecondTick ≠ .resetNReleased := by decide

/-- The decisecond count one below its maximum and at it, an expiry one count ahead and at its count. -/
theorem test_witness_deviceTime :
    ({ State.reset with ds := 4294967294 } : State).resetAsserted = false ∧
      (after .decisecondTick { State.reset with ds := 4294967294 }).ds = 4294967295 ∧
      (after .decisecondTick { State.reset with ds := 4294967295 }).ds = 4294967295 ∧
      (siteAt 110299).timerOf .evaluation = some 110300 ∧ (siteAt 110299).ds < 110300 ∧
      Expiry.evaluation ∈ (siteAt 110300).waiting := by decide +kernel

/-- SET_LIMITS with no entry, twelve entries, a short body, a number out of range, a number twice, and one setting each side of the
imminent threshold. -/
theorem test_witness_settings :
    11 < 12 ∧ ([1, 0, 0, 0] : List Byte).length ≠ 5 * 1 ∧ ([4, 0, 0, 0, 60] : List Byte).length = 5 * 1 ∧
      ¬(∀ e ∈ pairsOf 1 4 1 [12, 0, 0, 0, 1], 1 ≤ e.x ∧ e.x ≤ 11) ∧
      ¬((pairsOf 1 4 2 [11, 0, 0, 0, 1, 11, 0, 0, 0, 1]).map Point.x).Nodup ∧
      (∀ e ∈ pairsOf 1 4 2 [11, 0, 0, 0, 1, 1, 0, 0, 0, 30], 1 ≤ e.x ∧ e.x ≤ 11) ∧
      ((pairsOf 1 4 2 [11, 0, 0, 0, 1, 1, 0, 0, 0, 30]).map Point.x).Nodup ∧ 255 < 256 ^ 1 ∧ 4294967295 < 256 ^ 4 ∧
      4 ∈ (pairsOf 1 4 1 [4, 0, 0, 0, 60]).map Point.x := by decide

/-- The greatest enables, and a list of posts that closes twice, with the enable of SPILL_CLOSED set and clear. -/
theorem test_witness_notices :
    255 < 256 ∧ (holding (.setNoticeMask 255 255 255) site).takes 7 (.setNoticeMask 255 255 255) ∧
      State.reset.notices.tankMask.getLsbD 7 = true ∧ (127 : BitVec 8).getLsbD 7 = false ∧
      [TankPost.spillClosed .lost, .spillClosed .ended] = [.spillClosed .lost] ++ .spillClosed .ended :: [] ∧
      ∀ n, TankPost.spillClosed n ∉ [TankPost.imminent] :=
  ⟨by decide, holding_takes _ _ rfl, by decide, by decide, rfl, fun n => by cases n <;> decide⟩

/-- The least and the greatest field of every range of R1, and one field beyond each end. -/
theorem test_witness_tankDefined :
    FieldsInRange ⟨0, 0, 0, 0, 0, 1, 0, 1, 0, 1, 4, 0, 60, 1, 60, 0⟩ ∧
      FieldsInRange ⟨7, 3, 1, 15, 29999, 30000, 500, 65535, 65535, 1000, 64, 1, 3600, 8, 7200, 600⟩ ∧
      ¬FieldsInRange ⟨0, 0, 2, 0, 0, 1, 0, 1, 0, 1, 4, 0, 60, 1, 60, 0⟩ ∧
      ¬FieldsInRange ⟨0, 0, 0, 0, 1, 1, 0, 1, 0, 1, 4, 0, 60, 1, 60, 0⟩ ∧
      ¬FieldsInRange ⟨0, 0, 0, 0, 0, 1, 0, 1, 2, 1, 4, 0, 60, 1, 60, 0⟩ ∧
      site.inService 9 = true ∧ site.inService 4 = false ∧ site.tanks[4].isSome ∧ site.inService 31 = false ∧
      site.tanks[31] = none ∧ site.catchments[7] = none ∧ site.catchments[2].isSome := by
  refine ⟨?_, ?_, ?_, ?_, ?_, by decide +kernel⟩ <;> simp [FieldsInRange]

/-- Tables of 1, 2, 12 and 13 points, and the order in which the checks find a tank. -/
theorem test_witness_tablesLoaded :
    ¬StageShape 1 [⟨0, 0⟩] ∧ StageShape 2 [⟨0, 0⟩, ⟨30000, 4000000⟩] ∧ ¬StageShape 2 [⟨0, 0⟩, ⟨30001, 0⟩] ∧
      ¬StageShape 2 [⟨0, 1⟩, ⟨1, 0⟩] ∧ RatingShape 2 [⟨0, 0⟩, ⟨30000, 65535⟩] ∧ ¬RatingShape 2 [⟨1, 0⟩, ⟨2, 0⟩] ∧
      pairsOf 2 4 2 [0, 0, 0, 0, 0, 0, 0, 1, 0, 0, 0, 9] = [⟨0, 0⟩, ⟨1, 9⟩] ∧ idleTank.service = none ∧
      site.tanks[4] = some idleTank ∧ site.tanks[9] = some { idleTank with service := some service } := by
  unfold StageShape RatingShape; decide +kernel

theorem test_witness_tankLifecycle :
    idleTank.stage.isSome ∧ idleTank.rating.isSome ∧ ({ idleTank with rating := none } : Tank).rating = none ∧
      (∀ e, service.spilling ≠ .event e) ∧
      site.tanks[14] = some { idleTank with service := some { service with
        spilling := .event openSpill, level := { service.level with lastReport := some 10220 } } } :=
  ⟨rfl, rfl, rfl, fun _ h => Spilling.noConfusion h, rfl⟩

theorem test_witness_pendingMode :
    site.tanks[4] = some idleTank ∧ site.tanks[0] = none ∧ idleTank.defn.rMax < 301 ∧ ¬idleTank.defn.rMax < 300 ∧
      (holding (.setMode 4 1 301) site).takes 7 (.setMode 4 1 301) :=
  ⟨rfl, rfl, by decide, by decide, holding_takes _ _ rfl⟩

/-- SET_INHIBIT of an IN_SERVICE tank raises its effective inhibit, and so does the line of its zone. -/
theorem test_witness_inhibit :
    site.tanks[9] = some { idleTank with service := some service } ∧ idleTank.inhibited = false ∧
      formInhibit tankDef.combine site.pins.zinh[tankDef.zone] (decide (1 = 1)) = true ∧
      site.resetAsserted = false ∧ site.pins.zinh[(1 : Fin 4)] ≠ true := by decide +kernel

theorem test_witness_gaugeDefined :
    1 ∈ Set.Icc 1 100 ∧ 100 ∈ Set.Icc 1 100 ∧ 50 ∈ Set.Icc 1 50 ∧ 600 ∈ Set.Icc 600 86400 ∧ 86400 ∈ Set.Icc 600 86400 ∧
      ¬(0 ∈ Set.Icc 1 100) ∧ ¬(599 ∈ Set.Icc 600 86400) ∧ site.gauges[11] = none ∧ site.gauges[3] = some gauge ∧
      (∃ j : Fin 8, ∃ c ∈ site.catchments[j], 3 ∈ c.defn.gauges) ∧
      (∀ j : Fin 8, ∀ c ∈ ({ site with gauges := site.gauges.set 11 (some dryGauge) } : State).catchments[j],
        11 ∉ c.defn.gauges) := by
  decide +kernel

/-- An edge 4 and 5 deciseconds after the last tip with debounce 5, a DRY gauge, and a dry gap at its expiry. -/
theorem test_witness_tips :
    site.resetAsserted = false ∧ site.gauges[0] = none ∧ site.gauges[3] = some gauge ∧ site.gauges[5] = some dryGauge ∧
      101804 - 101800 < gauge.debounce ∧ gauge.debounce ≤ 101805 - 101800 ∧ gauge.lastTip = some 101800 ∧
      dryGauge.lastTip = none ∧ gauge.dryTimer = some 119800 ∧ (siteAt 119800).gauges[3] = some gauge ∧
      119800 ≤ (siteAt 119800).ds := by decide +kernel

theorem test_witness_intensity :
    gauge.storm = .wet ∧ gauge.interval = some 600 ∧ gauge.tipDepth = some 20 ∧ gauge.lastTip = some 101800 ∧
      0 < 600 ∧ 102000 ≤ 102001 := by decide

/-- A body of two gauges and the thresholds of section 5.12; a gauge out of range, a list with a repeat, an undefined gauge, and the
ends of the hold_down range. -/
theorem test_witness_catchmentDefined :
    (∀ m ∈ [50, 150, 300, 20, 60], m < 2 ^ 16) ∧ (∀ m ∈ [0, 2000, 0], m < 2 ^ 32) ∧
      (∃ g ∈ [3, 12], 11 < g) ∧ ([3, 5] : List (Fin 12)).map Fin.val = [3, 5] ∧ ¬[3, 3].Nodup ∧ [3, 5].Nodup ∧
      60 ∈ Set.Icc 60 7200 ∧ 7200 ∈ Set.Icc 60 7200 ∧ ¬(59 ∈ Set.Icc 60 7200) ∧
      (∃ g ∈ ([3, 0] : List (Fin 12)), site.gauges[g] = none) ∧
      (∀ g ∈ ([3, 5] : List (Fin 12)), site.gauges[g].isSome) ∧ site.catchments[0] = none ∧
      site.catchments[2] = some catchment ∧ (∃ i : Fin 32, ∃ t ∈ site.tanks[i], t.defn.catchment = 2) ∧
      (∀ i : Fin 32, ∀ t ∈ site.tanks[i], t.defn.catchment ≠ 3) ∧ site.catchments[3] = some floored := by
  decide +kernel

/-- Each level due by intensity at its threshold, one below it, and by depth. -/
theorem test_witness_rawLevel :
    catchment.defn.iSevere ≤ 300 ∧ ¬(catchment.defn.iSevere ≤ 299) ∧ catchment.defn.dSevere = 0 ∧
      catchment.defn.dWarning ≠ 0 ∧ catchment.defn.dWarning ≤ 2000 ∧ catchment.defn.iWatch ≤ 50 ∧
      ¬(catchment.defn.iWatch ≤ 49 ∨ catchment.defn.dWatch ≠ 0 ∧ catchment.defn.dWatch ≤ 0) := by decide

/-- A rise, no fall at 280, a fall at 279 one second before and at the end of the hold-down. -/
theorem test_witness_gaugeLevel :
    catchment.gaugeLevel.code < (catchment.defn.rawLevel 60 300).code ∧
      (severe.defn.rawLevel 279 0).code ≤ severe.gaugeLevel.code ∧
      (severe.gaugeLevel, 300, 0) ∈ [(AlertLevel.watch, severe.defn.iWatch, severe.defn.dWatch),
        (.warning, severe.defn.iWarning, severe.defn.dWarning), (.severe, severe.defn.iSevere, severe.defn.dSevere)] ∧
      ¬(280 < 300 - severe.defn.hysteresis) ∧ 279 < 300 - severe.defn.hysteresis ∧ severe.holdStart = some 5280 ∧
      5280 + severe.defn.holdDown ≤ 5580 ∧ 5579 < 5280 + severe.defn.holdDown ∧ catchment.holdStart = none := by decide

theorem test_witness_evaluation :
    site.resetAsserted = false ∧ (siteAt 110300).alerts.evalTimer = some 110300 ∧ 110300 ≤ (siteAt 110300).ds ∧
      (severe.evaluate 5340 290 2500).catchment.effective.code ≤ severe.effective.code := by decide +kernel

/-- A floor of SEVERE for one second, a level of 4, no duration, NONE, and a floor at its expiry. -/
theorem test_witness_floors :
    AlertLevel.severe.code = 3 ∧ AlertLevel.noAlert.code = 0 ∧ 3 < 4 ∧ site.catchments[2] = some catchment ∧
      site.catchments[3] = some floored ∧ site.catchments[7] = none ∧
      floored.floor = some { level := .warning, expiry := 11500, timer := 115000 } ∧ 115000 ≤ (siteAt 115000).ds ∧
      catchment.effective = .noAlert ∧ floored.effective ≠ .noAlert := by decide +kernel

theorem test_witness_interpolation :
    (stage.Pairwise fun p q => p.x < q.x ∧ p.y ≤ q.y) ∧ 0 < stage.length ∧ stage[1].x ≤ 1000 ∧ 2499 < stage[1 + 1].x ∧
      0 ≤ stage[0].x ∧ stage[3].x ≤ 4000 := by decide

theorem test_witness_netRate :
    9000 < 9060 ∧ 2903 ≤ 2951 ∧ 80 = (2951 - 2903) * 100 / (9060 - 9000) ∧ 65535 < (40000 - 0) * 100 / (9001 - 9000) ∧
      (-65535 : Int) ≤ 65535 ∧ ((3 : Int) - 0).natAbs ≤ 3 ∧ ¬((4 : Int) - 0).natAbs ≤ 3 := by decide

/-- A report at the time of the last one and one second later; the tank has a previous volume, a table and a level at the crest. -/
theorem test_witness_report :
    site.inService 4 = false ∧ site.tanks[9] = some { idleTank with service := some service } ∧
      service.level.lastReport = some 9000 ∧ site.ds / 10 - min 2000 3600 ≤ 9000 ∧ 9000 < site.ds / 10 - min 1999 3600 ∧
      service.level.previous = some { volume := 2903, time := 9000 } ∧ idleTank.defn.crestLevel < 2001 ∧
      2000 ≤ idleTank.defn.crestLevel ∧ idleTank.stage = some { points := stage, vDry := 360, vCrest := 3533 } ∧
      0 < stage.length ∧ (site.catchments[idleTank.defn.catchment]).isSome := by
  decide +kernel

/-- A stale expiry below lost_limit, and one that reaches it, at the very count of the expiry. -/
theorem test_witness_silence :
    site.tanks[9] = some { idleTank with service := some service } ∧ service.level.staleTimer = some 111000 ∧
      111000 ≤ (siteAt 111000).ds ∧ min idleTank.defn.lostLimit (service.level.expiries + 1) = idleTank.defn.lostLimit ∧
      min idleTank.defn.lostLimit (0 + 1) < idleTank.defn.lostLimit ∧ service.supervisor.levelLost = false := by
  decide +kernel

theorem test_witness_faultsCleared :
    site.tanks[9] = some { idleTank with service := some service } ∧ service.supervisor.stall = false ∧
      service.supervisor.levelLost = false ∧ ({ service.supervisor with stall := true } : Supervisor).stall = true := by
  decide +kernel

/-- A fall of exactly fall_min, and of one millimetre less. -/
theorem test_witness_stalls :
    0 < 80 ∧ ({ service.supervisor with snapshot := some 1750 } : Supervisor).snapshot = some 1750 ∧
      service.supervisor.reportMark = true ∧ service.level.lastLevel = some 1730 ∧ 1730 + tankDef.fallMin ≤ 1750 ∧
      1749 < 1730 + tankDef.fallMin ∧ service.supervisor.snapshot = none := by decide

theorem test_witness_allocationStarts :
    site.alloc.running = false ∧
      ({ site with alloc := { site.alloc with running := true, periodTimer := some 111195 } } : State).alloc.periodTimer =
        some 111195 := by decide +kernel

/-- The trip, hold and tank conditions of the computation; the trip state is tried on both sides. -/
theorem test_witness_grants :
    ({ site.guard with trip := .tripped 0 } : Guard).trip = .tripped 0 ∧
      ({ site.guard with hold := .held 0 2 1 10 } : Guard).hold = .held 0 2 1 10 ∧
      ({ site.guard with hold := .overridden 0 1 } : Guard).hold = .overridden 0 1 ∧ site.guard.isTripped = false ∧
      ({ site.guard with trip := .tripped 0 } : Guard).isTripped = true ∧ site.guard.trip = .armed none ∧
      site.guard.hold = .noHold ∧ site.eligible 9 = true ∧ site.eligible 14 = true ∧ site.inService 4 = false ∧
      ({ idleTank.pendingMode with mode := .manual } : ModePair).mode = .manual ∧
      (computation site).alloc.runOrder = [14] ++ 9 :: [] ∧ site.tanks[9] = some { idleTank with service := some service } ∧
      idleTank.stage = some { points := stage, vDry := 360, vCrest := 3533 } ∧ service.level.volume = some 2903 := by
  decide +kernel

/-- Two eligible tanks stand in grant order: the open spill puts tank 14 in class 0, before tank 9. -/
theorem test_witness_runList : (computation site).alloc.runOrder = [14, 9] ∧ GrantBefore site 14 9 := by
  unfold GrantBefore; decide +kernel

theorem test_witness_promotion :
    site.tanks[4] = some idleTank ∧ site.tanks[9] = some { idleTank with service := some service } ∧ site.tanks[0] = none ∧
      (promoteOrders (computation site)).orders[(9 : Fin 32)].active = 300 ∧
      (promoteOrders (promoteOrders site)).orders[(9 : Fin 32)].active = 0 := by decide +kernel

/-- An allocation run at its expiry, and each trip state with a blank time of 0 and above. -/
theorem test_witness_run :
    ({ site with alloc := { site.alloc with running := true, periodTimer := some 110000 } } : State).alloc.running = true ∧
      110000 ≤ site.ds ∧ site.guard.trip = .armed none ∧ 0 < site.guard.blankTime ∧
      ({ site.guard with blankTime := 0, trip := .blanked 9 } : Guard).blankTime = 0 := by decide +kernel

/-- A fall of B from 900 to 200 cuts the computed orders of both tanks, tank 9 first. -/
theorem test_witness_shed :
    ∃ s : State, s.alloc.running = true ∧ 200 < s.alloc.budget ∧ s.alloc.runOrder.Nodup ∧
      [14, 9].Sublist s.alloc.runOrder ∧ s.autoActive 9 = true ∧ (setBudget 200 s).orders[(14 : Fin 32)].next = 200 ∧
      s.orders[(14 : Fin 32)].next = 300 ∧ (setBudget 200 s).orders[(9 : Fin 32)].next = 0 :=
  ⟨{ computation site with alloc := { (computation site).alloc with running := true } }, by decide +kernel⟩

theorem test_witness_bankSelection :
    (0 : Fin 8) = site.alloc.selected ∧ (7 : Fin 8) ≠ site.alloc.selected ∧ site.resetAsserted = false ∧
      site.pins.capSel[(2 : Fin 3)] ≠ true ∧
      (4 : Fin 8).val = (if (site.pins.capSel.set 2 true)[0] then 1 else 0) +
        (if (site.pins.capSel.set 2 true)[1] then 2 else 0) + (if (site.pins.capSel.set 2 true)[2] then 4 else 0) ∧
      ({ site with alloc := { site.alloc with settleTimer := some 110000 } } : State).alloc.settleTimer = some 110000 := by
  decide +kernel

/-- A filter at its expiry, a change of INTAKE_HIGH in every trip state, with a filter time of 0 and above. -/
theorem test_witness_trip :
    ({ site with guard := { site.guard with trip := .armed (some 110000) } } : State).guard.trip = .armed (some 110000) ∧
      110000 ≤ site.ds ∧ site.pins.intakeHigh ≠ true ∧ site.guard.trip = .armed none ∧ 0 < site.guard.filterTime ∧
      (∀ f, Trip.blanked 1 ≠ .armed f) ∧ ({ site.guard with filterTime := 0 } : Guard).filterTime = 0 ∧
      site.tanks[14].isSome ∧ site.inService 4 = false ∧ site.tanks[9] = some { idleTank with service := some service } ∧
      idleTank.inForce.mode = .auto :=
  ⟨rfl, by decide, by decide, rfl, by decide, fun _ h => Trip.noConfusion h, rfl, rfl, by decide, rfl, rfl⟩

/-- A blank timer and an off-timer at their expiry, the line high and low, and RESUME in and out of TRIPPED. -/
theorem test_witness_tripEnds :
    ({ site with guard := { site.guard with trip := .blanked 110000 } } : State).guard.trip = .blanked 110000 ∧
      ({ site with guard := { site.guard with trip := .tripped 110000 } } : State).guard.trip = .tripped 110000 ∧
      110000 ≤ site.ds ∧ site.guard.lineHigh = false ∧ ({ site.guard with lineHigh := true } : Guard).lineHigh = true ∧
      ∀ e, site.guard.trip ≠ .tripped e :=
  ⟨rfl, rfl, by decide, rfl, rfl, fun _ h => Trip.noConfusion h⟩

/-- A hold of one second, an end that moves and one that does not, and the end at and before the limit. -/
theorem test_witness_hold :
    site.guard.hold = .noHold ∧ min (max 11500 (site.ds / 10 + min 500 86400)) 12000 = 11500 ∧
      min (max 11500 (site.ds / 10 + min 501 86400)) 12000 = 11501 ∧
      ({ site with guard := { site.guard with hold := .held 10000 11000 11000 110000 } } : State).guard.hold =
        .held 10000 11000 11000 110000 ∧ 110000 ≤ site.ds := by decide +kernel

/-- A level at the crest and one above it, a candidate one second before and at its confirmation, a start before and at the end of a
window. -/
theorem test_witness_spillOpens :
    2000 ≤ tankDef.crestLevel ∧ tankDef.crestLevel < 2001 ∧ 10219 < 10100 + tankDef.confirmTime ∧
      10100 + tankDef.confirmTime ≤ 10220 ∧
      ({ book with window := some { start := 0, stop := 10101 } } : SpillBook).window = some { start := 0, stop := 10101 } ∧
      10100 < 10101 ∧ 10100 ≤ 10100 := by decide

/-- A level above the end threshold and at it, a quiet run one second before and at its end. -/
theorem test_witness_spillEnds :
    tankDef.crestLevel - tankDef.endHysteresis < 1901 ∧ 1900 ≤ tankDef.crestLevel - tankDef.endHysteresis ∧
      openSpill.quietStart = none ∧ 11999 < 11400 + tankDef.quietTime ∧ 11400 + tankDef.quietTime ≤ 12000 := by decide

theorem test_witness_countsReset :
    site.tanks[0] = none ∧ site.tanks[4] = some idleTank ∧ (∀ e, service.spilling ≠ .event e) ∧
      site.tanks[14] = some { idleTank with service := some { service with
        spilling := .event openSpill, level := { service.level with lastReport := some 10220 } } } :=
  ⟨rfl, rfl, fun _ h => Spilling.noConfusion h, rfl⟩

theorem test_witness_reads :
    site.tanks[31] = none ∧ site.tanks[4] = some idleTank ∧ site.gauges[11] = none ∧ site.gauges[3] = some gauge ∧
      site.catchments[7] = none ∧ (∀ c ∈ site.catchments[2], c.defn.gauges.length ≤ 4) ∧
      site.tanks[9] = some { idleTank with service := some service } ∧ service.level.staleTimer = some 111000 ∧
      site.catchments[2] = some catchment ∧ catchment.floor = none ∧ site.catchments[3] = some floored ∧
      floored.floor = some { level := .warning, expiry := 11500, timer := 115000 } ∧ site.guard.hold = .noHold ∧
      site.alloc.runOrder.length ≤ 32 := by decide +kernel

/-- The line of the Intake Guard low, and high with a filter time of 0 and above. -/
theorem test_witness_stateCleared :
    site.guard.lineHigh = false ∧ 0 < site.guard.filterTime ∧
      ({ site.guard with lineHigh := true, filterTime := 0 } : Guard).filterTime = 0 ∧
      (holding .clearState site).takes 7 .clearState :=
  ⟨rfl, by decide, rfl, holding_takes _ _ rfl⟩

/-- A case for each row of R16's list: both faults, no level, a demand, a level at dry_level and one above it with and without a rate. -/
theorem test_witness_opState :
    ({ service.supervisor with levelLost := true } : Supervisor).levelLost = true ∧
      ¬(service.supervisor.levelLost = true ∨ service.supervisor.stall = true ∧ tankDef.faultReaction = .latch) ∧
      LevelState.fresh.lastLevel = none ∧ service.level.lastLevel = some 1730 ∧ 0 < 80 ∧ 300 ≤ tankDef.dryLevel ∧
      tankDef.dryLevel < 301 ∧ tankDef.dryLevel < 1730 ∧ service.level.netRate = none ∧
      (∃ e : Int, ({ service.level with netRate := some 1 } : LevelState).netRate = some e ∧ 0 < e) ∧
      ∀ e : Int, ({ service.level with netRate := some 0 } : LevelState).netRate = some e → e ≤ 0 :=
  ⟨rfl, by decide, rfl, rfl, by decide, by decide, by decide, by decide, rfl, ⟨1, rfl, by decide⟩,
    fun e h => by simp only [Option.some.injEq] at h; omega⟩

/-- No timer of the site lies behind its count. -/
theorem test_witness_timersAhead (pending : List Instr) : TimersAhead { site with pending := pending } := by
  have all : (allExpiries.all fun e => match site.timerOf e with
      | some n => decide (site.ds ≤ n)
      | none => true) = true := by decide +kernel
  intro e n he
  have := List.all_eq_true.1 all e (mem_allExpiries e)
  have he' : site.timerOf e = some n := by cases e <;> exact he
  simp only [he'] at this
  exact of_decide_eq_true this

/-- The site with a tick waiting meets the hypotheses of every law at once, and steps. -/
theorem test_witness_laws :
    ∃ s t : State, step s = .next t ∧ t.ds = 110001 ∧ OpStatesFormed s ∧ OrdersWithinLimits s ∧ AutoMarksInForce s ∧
      TripHoldsOrders s ∧ RunListLawful s ∧ OrdersWithinBudget s ∧ StoppedHoldsNothing s ∧ StormsLawful s ∧
      AlertsLawful s ∧ NamesDefined s ∧ CountersLawful s ∧ LevelsLawful s ∧ LinesFollow s ∧ LinesTaken s ∧
      SelectionLawful s ∧ HoldLawful s ∧ TimersLawful s ∧ SettingsInRange s ∧ TimersAhead s := by
  refine ⟨{ site with pending := [.decisecondTick] }, _, rfl, by decide +kernel, ?_, ?_, ?_, ?_, ?_, ?_, ?_, ?_, ?_, ?_, ?_, ?_,
    ?_, ?_, ?_, fun _ _ _ _ h => Hold.noConfusion h, ?_, ?_, test_witness_timersAhead _⟩
  · unfold OpStatesFormed; decide +kernel
  · unfold OrdersWithinLimits MayHoldOrders; decide +kernel
  · unfold AutoMarksInForce; decide +kernel
  · unfold TripHoldsOrders; decide +kernel
  · unfold RunListLawful MayHoldOrders; decide +kernel
  · unfold OrdersWithinBudget; decide +kernel
  · unfold StoppedHoldsNothing; decide +kernel
  · unfold StormsLawful; decide +kernel
  · unfold AlertsLawful; decide +kernel
  · unfold NamesDefined; decide +kernel
  · unfold CountersLawful; decide +kernel
  · unfold LevelsLawful; decide +kernel
  · unfold LinesFollow AttnFollows; decide +kernel
  · unfold LinesTaken; decide +kernel
  · unfold SelectionLawful; decide +kernel
  · unfold TimersLawful; decide +kernel
  · unfold SettingsInRange; decide +kernel

end Sys2Proof.Tests
end

section
/-! PROOFS. The Tank Table: requests on an OFFLINE tank, and the loading of its two tables (R5 to R7). -/

namespace Sys2Proof.Machine

/-! ### Requests on an OFFLINE tank -/

/-- The checks that several requests of the Tank Table share, in the order of the spec: the index, a defined tank, not IN_SERVICE. What
`owner` answers is then the request's own part. -/
def answerOffline (tank : Nat) (owner : Fin 32 → Tank → Answer) (s : State) : Answer :=
  match indexIn 32 tank with
  | none => refuse .badIndex s
  | some i =>
    match s.tanks[i] with
    | none => refuse .notDefined s
    | some t => if t.service.isSome then refuse .notOffline s else owner i t

section
variable {c : Instr} {s : State} {tag : Byte} {tank : Nat} {owner : Fin 32 → Tank → Answer}

/-- A request whose answer is a refusal is refused with that status. -/
theorem refusedWith_of_answer {a : Answer} {status : Status} (h : exec c s = .next (a.stored tag))
    (ha : a = refuse status s) : RefusedWith c s tag status := by
  rw [RefusedWith, h, ha, refuse_stored]

theorem answerOffline_badIndex (h : 31 < tank) : answerOffline tank owner s = refuse .badIndex s := by
  simp [answerOffline, indexIn_out h]

theorem answerOffline_undefined {i : Fin 32} (h : s.tanks[i] = none) :
    answerOffline i owner s = refuse .notDefined s := by
  simp only [answerOffline, indexIn_val, h]

theorem answerOffline_inService {i : Fin 32} {t : Tank} (h : s.tanks[i] = some t) (hv : t.service.isSome) :
    answerOffline i owner s = refuse .notOffline s := by
  simp only [answerOffline, indexIn_val, h, hv, if_true]

theorem answerOffline_offline {i : Fin 32} {t : Tank} (h : s.tanks[i] = some t) (hv : t.service = none) :
    answerOffline i owner s = owner i t := by
  simp [answerOffline, indexIn_val, h, hv]

/-- What a request with these checks does when it is taken: one of the three refusals, or its own part. -/
theorem exec_answerOffline (h : exec c s = .next ((answerOffline tank owner s).stored tag)) :
    (31 < tank → RefusedWith c s tag .badIndex) ∧
    ∀ i : Fin 32, i.val = tank →
      (s.tanks[i] = none → RefusedWith c s tag .notDefined) ∧
      ∀ t, s.tanks[i] = some t →
        (t.service.isSome → RefusedWith c s tag .notOffline) ∧
        (t.service = none → exec c s = .next ((owner i t).stored tag)) := by
  refine ⟨fun hi => refusedWith_of_answer h (answerOffline_badIndex hi), ?_⟩
  rintro i rfl
  refine ⟨fun hn => refusedWith_of_answer h (answerOffline_undefined hn), fun t ht => ⟨fun hv => ?_, fun hv => ?_⟩⟩
  · exact refusedWith_of_answer h (answerOffline_inService ht hv)
  · rw [h, answerOffline_offline ht hv]

end

/-! ### The shapes of the tables -/

/-- Levels strictly increase and values do not decrease along the table: checking each point against the next checks every pair. -/
theorem risingPoints_iff (points : List Point) :
    risingPoints points = true ↔ points.Pairwise fun p q => p.x < q.x ∧ p.y ≤ q.y := by
  have : IsTrans Point fun p q => p.x < q.x ∧ p.y ≤ q.y :=
    ⟨fun _ _ _ hab hbc => ⟨hab.1.trans hbc.1, hab.2.trans hbc.2⟩⟩
  rw [← List.isChain_iff_pairwise]
  induction points with
  | nil => simp [risingPoints]
  | cons p rest ih =>
    cases rest with
    | nil => simp [risingPoints]
    | cons q rest => simp [risingPoints, ih]

/-- The checks of R5 accept exactly the stage-storage tables of its shape. -/
theorem stageOk_iff (count : Nat) (points : List Point) : stageOk count points = true ↔ StageShape count points := by
  simp [stageOk, StageShape, risingPoints_iff, and_assoc]

/-- The checks of R6 accept exactly the spill rating tables of its shape. -/
theorem ratingOk_iff (count : Nat) (points : List Point) : ratingOk count points = true ↔ RatingShape count points := by
  simp [ratingOk, RatingShape, risingPoints_iff, and_assoc]

/-! ### The loading of a table -/

/-- The own part of both table requests: the length that the count gives, then the table's shape, then the loading. -/
def answerTable (size : Nat) (body : List Byte) (ok : Bool) (loaded : Answer) (s : State) : Answer :=
  if body.length ≠ size then refuse .badLength s
  else if ok then loaded
  else refuse .badTable s

/-- What a table request does past the checks on the tank, where `ok` checks the shape `P`. -/
theorem exec_answerTable {c : Instr} {s : State} {tag : Byte} {size : Nat} {body : List Byte} {ok : Bool} {P : Prop}
    {loaded : Answer} (hok : ok = true ↔ P) (h : exec c s = .next ((answerTable size body ok loaded s).stored tag)) :
    (body.length ≠ size → RefusedWith c s tag .badLength) ∧
    (body.length = size → ¬P → RefusedWith c s tag .badTable) ∧
    (body.length = size → P → exec c s = .next (loaded.stored tag)) := by
  refine ⟨fun hl => refusedWith_of_answer h ?_, fun hl hP => refusedWith_of_answer h ?_, fun hl hP => ?_⟩
  · simp [answerTable, hl]
  · simp [answerTable, hl, mt hok.1 hP]
  · simp [h, answerTable, hl, hok.2 hP]

/-- The loading of a stage-storage table: V_dry and V_crest are derived from it and returned (R5, R7). -/
def loadStage (points : List Point) (s : State) (i : Fin 32) (t : Tank) : Answer :=
  let st := StageTable.derive t.defn points
  accept (joinFields [4, 4] [st.vDry, st.vCrest]) (s.setTank i (some { t with stage := some st }))

/-- The loading of a spill rating table (R6). -/
def loadRating (points : List Point) (s : State) (i : Fin 32) (t : Tank) : Answer :=
  accept [] (s.setTank i (some { t with rating := some points }))

theorem answerLoadStageTable_eq (tank n : Nat) (body : List Byte) (s : State) :
    answerLoadStageTable tank n body s = answerOffline tank (fun i t => answerTable (6 * n) body
      (stageOk n (pairsOf 2 4 n body)) (loadStage (pairsOf 2 4 n body) s i t) s) s := rfl

theorem answerLoadRatingTable_eq (tank n : Nat) (body : List Byte) (s : State) :
    answerLoadRatingTable tank n body s = answerOffline tank (fun i t => answerTable (4 * n) body
      (ratingOk n (pairsOf 2 2 n body)) (loadRating (pairsOf 2 2 n body) s i t) s) s := rfl

/-- The state and the reply that a loaded stage-storage table leaves. -/
theorem loadStage_stored (points : List Point) (s : State) (i : Fin 32) (t : Tank) (tag : Byte) :
    (loadStage points s i t).stored tag =
      State.replied tag .ok
        (bytesOf 4 (interpolate points t.defn.dryLevel) ++ bytesOf 4 (interpolate points t.defn.crestLevel))
        { s with tanks := s.tanks.set i (some { t with
          stage := some
            { points := points, vDry := interpolate points t.defn.dryLevel,
              vCrest := interpolate points t.defn.crestLevel } }) } := by
  simp [loadStage, State.setTank, StageTable.derive, joinFields]

/-- The state and the reply that a loaded spill rating table leaves. -/
theorem loadRating_stored (points : List Point) (s : State) (i : Fin 32) (t : Tank) (tag : Byte) :
    (loadRating points s i t).stored tag =
      State.replied tag .ok [] { s with tanks := s.tanks.set i (some { t with rating := some points }) } := rfl

/-- What a table request does when it is taken, where `ok` checks the shape `P`: the checks on the tank, then those on the table, and
then the loading. -/
theorem exec_loadTable {c : Instr} {s : State} {tag : Byte} {tank size : Nat} {body : List Byte} {ok : Bool} {P : Prop}
    {load : Fin 32 → Tank → Answer} (hok : ok = true ↔ P)
    (h : exec c s = .next ((answerOffline tank (fun i t => answerTable size body ok (load i t) s) s).stored tag)) :
    (31 < tank → RefusedWith c s tag .badIndex) ∧
    ∀ i : Fin 32, i.val = tank →
      (s.tanks[i] = none → RefusedWith c s tag .notDefined) ∧
      ∀ t, s.tanks[i] = some t →
        (t.service.isSome → RefusedWith c s tag .notOffline) ∧
        (t.service = none →
          (body.length ≠ size → RefusedWith c s tag .badLength) ∧
          (body.length = size → ¬P → RefusedWith c s tag .badTable) ∧
          (body.length = size → P → exec c s = .next ((load i t).stored tag))) := by
  obtain ⟨outOfRange, inRange⟩ := exec_answerOffline h
  refine ⟨outOfRange, fun i hi => ?_⟩
  obtain ⟨undefined, defined⟩ := inRange i hi
  refine ⟨undefined, fun t ht => ?_⟩
  obtain ⟨inService, offline⟩ := defined t ht
  exact ⟨inService, fun hv => exec_answerTable hok (offline hv)⟩

/-- Settles O16: both requests run the checks on the tank, then those on the table, and then load it. -/
theorem tablesLoaded : Obligations.TablesLoaded := by
  refine ⟨fun s tag tank n body h => ?_, fun s tag tank n body h => ?_⟩
  · have taken := exec_loadStageTable_taken tank n body h
    rw [answerLoadStageTable_eq] at taken
    simpa only [loadStage_stored] using exec_loadTable (stageOk_iff n (pairsOf 2 4 n body)) taken
  · have taken := exec_loadRatingTable_taken tank n body h
    rw [answerLoadRatingTable_eq] at taken
    simpa only [loadRating_stored] using exec_loadTable (ratingOk_iff n (pairsOf 2 2 n body)) taken

end Sys2Proof.Machine
end

section
/-! PROOFS. The arithmetic of level reports: the interpolation unit (R27), the sample of the net rate (R32) and its smoothing (R33). -/

namespace Sys2Proof.Machine

/-! ### One segment of a table -/

/-- The value at `x` on the line from `p` to `q`, floored. Below `p` the difference `x - p.x` truncates to 0, so the value is `p.y`. -/
def segmentValue (p q : Point) (x : Nat) : Nat :=
  p.y + (q.y - p.y) * (x - p.x) / (q.x - p.x)

section
variable {p q : Point} {x : Nat}

theorem segmentValue_of_le_left (h : x ≤ p.x) : segmentValue p q x = p.y := by
  simp [segmentValue, Nat.sub_eq_zero_of_le h]

theorem left_le_segmentValue : p.y ≤ segmentValue p q x :=
  Nat.le_add_right _ _

theorem segmentValue_le_right (hy : p.y ≤ q.y) (hx : x ≤ q.x) : segmentValue p q x ≤ q.y := by
  have quotient : (q.y - p.y) * (x - p.x) / (q.x - p.x) ≤ q.y - p.y := by
    refine Nat.div_le_of_le_mul ?_
    rw [Nat.mul_comm]
    exact Nat.mul_le_mul_right _ (Nat.sub_le_sub_right hx _)
  unfold segmentValue
  omega

theorem segmentValue_mono (p q : Point) : Monotone (segmentValue p q) := fun _ _ hx =>
  Nat.add_le_add_left (Nat.div_le_div_right (Nat.mul_le_mul_left _ (Nat.sub_le_sub_right hx _))) _

end

/-! ### The interpolation unit (R27) -/

/-- Below the second point the first segment decides, its value before the first point included; from the second point on the rest of
the table decides. -/
theorem interpolate_cons_cons {p q : Point} (h : p.x < q.x) (rest : List Point) (x : Nat) :
    interpolate (p :: q :: rest) x = if x < q.x then segmentValue p q x else interpolate (q :: rest) x := by
  by_cases hp : x ≤ p.x
  · rw [interpolate, if_pos hp, if_pos (hp.trans_lt h), segmentValue_of_le_left hp]
  · rw [interpolate, if_neg hp, segmentValue]

theorem interpolate_of_le_first {p : Point} {x : Nat} (h : x ≤ p.x) (rest : List Point) :
    interpolate (p :: rest) x = p.y := by
  cases rest with
  | nil => rfl
  | cons q rest => rw [interpolate, if_pos h]

section
variable {points : List Point} {x : Nat} (h : points.Pairwise fun p q => p.x < q.x ∧ p.y ≤ q.y)
include h

/-- The points before one that the input has reached do not matter. -/
theorem interpolate_drop (i : Nat) (hi : i < points.length) (hx : points[i].x ≤ x) :
    interpolate points x = interpolate (points.drop i) x := by
  induction i with
  | zero => rfl
  | succ i ih =>
    have rise : points[i].x < points[i + 1].x := (List.pairwise_iff_getElem.1 h i (i + 1) _ hi i.lt_succ_self).1
    rw [ih (by omega) (by omega), List.drop_eq_getElem_cons (by omega), List.drop_eq_getElem_cons hi,
      interpolate_cons_cons rise, if_neg (by omega)]

theorem interpolate_of_last_le (hpos : 0 < points.length) (hx : points[points.length - 1].x ≤ x) :
    interpolate points x = points[points.length - 1].y := by
  rw [interpolate_drop h _ _ hx, List.drop_length_sub_one (List.ne_nil_of_length_pos hpos), interpolate,
    List.getLast_eq_getElem]

theorem interpolate_on_segment (i : Nat) (hi : i + 1 < points.length) (hlow : points[i].x ≤ x)
    (hhigh : x < points[i + 1].x) : interpolate points x = segmentValue points[i] points[i + 1] x := by
  rw [interpolate_drop h i (by omega) hlow, List.drop_eq_getElem_cons (by omega), List.drop_eq_getElem_cons hi,
    interpolate_cons_cons (by omega), if_pos hhigh]

/-- The one case with content is an input on the first segment and another past it: the second point's value separates them. -/
theorem interpolate_mono : Monotone (interpolate points) := by
  induction points with
  | nil => exact monotone_const
  | cons p rest ih =>
    cases rest with
    | nil => exact monotone_const
    | cons q rest =>
      obtain ⟨hp, hrest⟩ := List.pairwise_cons.1 h
      obtain ⟨hx, hy⟩ := hp q List.mem_cons_self
      intro x x' hxx'
      rw [interpolate_cons_cons hx, interpolate_cons_cons hx]
      split_ifs with low high high
      · exact segmentValue_mono p q hxx'
      · calc segmentValue p q x ≤ q.y := segmentValue_le_right hy low.le
          _ = interpolate (q :: rest) q.x := (interpolate_of_le_first le_rfl rest).symm
          _ ≤ interpolate (q :: rest) x' := ih hrest (Nat.le_of_not_lt high)
      · omega
      · exact ih hrest hxx'

theorem interpolate_le_last (hpos : 0 < points.length) : interpolate points x ≤ points[points.length - 1].y :=
  calc interpolate points x ≤ interpolate points (max x points[points.length - 1].x) :=
        interpolate_mono h (le_max_left _ _)
    _ = points[points.length - 1].y := interpolate_of_last_le h hpos (le_max_right _ _)

end

theorem first_le_interpolate {p : Point} {rest : List Point}
    (h : (p :: rest).Pairwise fun p q => p.x < q.x ∧ p.y ≤ q.y) (x : Nat) : p.y ≤ interpolate (p :: rest) x :=
  calc p.y = interpolate (p :: rest) (min x p.x) := (interpolate_of_le_first (min_le_right _ _) rest).symm
    _ ≤ interpolate (p :: rest) x := interpolate_mono h (min_le_left _ _)

/-- Settles O27: the segment that the input lies on gives the value, and both bounds follow from monotonicity and the end values. -/
theorem interpolationFollowsTable : Obligations.InterpolationFollowsTable := by
  intro points h hpos x
  obtain ⟨p, rest, rfl⟩ := List.exists_cons_of_length_pos hpos
  refine ⟨fun hx => interpolate_of_le_first hx rest, interpolate_of_last_le h hpos, fun i hi hlow hhigh => ?_,
    first_le_interpolate h x, interpolate_le_last h hpos, fun _ hx => interpolate_mono h hx⟩
  have rise := (List.pairwise_iff_getElem.1 h i (i + 1) (by omega) hi i.lt_succ_self).2
  rw [interpolate_on_segment h i hi hlow hhigh]
  exact ⟨rfl, left_le_segmentValue, segmentValue_le_right rise hhigh.le⟩

/-! ### The net rate (R32, R33) -/

/-- The sample of a fall is the opposite of the sample of the same rise: the division truncates toward zero and the limits are
symmetric. -/
theorem rateSample_swap (volume previous seconds : Nat) :
    rateSample volume previous seconds = -rateSample previous volume seconds := by
  have opposite : ((volume : Int) - previous) * 100 = -(((previous : Int) - volume) * 100) := by omega
  rw [rateSample, rateSample, opposite, Int.neg_tdiv]
  omega

theorem rateSample_of_le {volume previous : Nat} (h : previous ≤ volume) (seconds : Nat) :
    rateSample volume previous seconds =
      if 65535 < (volume - previous) * 100 / seconds then 65535
      else (((volume - previous) * 100 / seconds : Nat) : Int) := by
  have exactQuotient : (((volume : Int) - previous) * 100).tdiv seconds =
      (((volume - previous) * 100 / seconds : Nat) : Int) := by
    rw [Int.ofNat_tdiv, Nat.cast_mul, Nat.cast_sub h, Nat.cast_ofNat]
  rw [rateSample, exactQuotient]
  generalize (volume - previous) * 100 / seconds = quotient
  split_ifs <;> omega

/-- The estimate moves toward the sample by the floored quarter of their distance: the truncation toward zero, written by direction. -/
theorem smoothRate_some (e sample : Int) :
    smoothRate (some e) sample = if e ≤ sample then e + (sample - e) / 4 else e - (e - sample) / 4 := by
  rw [smoothRate]
  split_ifs with rising
  · rw [Int.tdiv_eq_ediv_of_nonneg (by omega)]
  · rw [← neg_sub e sample, Int.neg_tdiv, Int.tdiv_eq_ediv_of_nonneg (by omega), ← Int.sub_eq_add_neg]

theorem smoothRate_between (e sample : Int) :
    min e sample ≤ smoothRate (some e) sample ∧ smoothRate (some e) sample ≤ max e sample := by
  rw [smoothRate_some]
  split_ifs <;> omega

/-- The dead band: a distance of at most 3 has no whole quarter. -/
theorem smoothRate_stands {e sample : Int} (h : (sample - e).natAbs ≤ 3) : smoothRate (some e) sample = e := by
  rw [smoothRate_some]
  split_ifs <;> omega

/-- Settles O28: the sample by the sign of the difference, the smoothing by its direction. -/
theorem netRateSmoothed : Obligations.NetRateSmoothed := by
  refine ⟨fun volume previous report before _ => ⟨?_, ?_⟩, fun _ => rfl, fun e sample => ?_⟩
  · rintro q hrise rfl
    exact rateSample_of_le hrise _
  · rintro q hfall rfl
    rw [rateSample_swap, rateSample_of_le hfall]
    split_ifs <;> rfl
  · obtain ⟨low, high⟩ := smoothRate_between e sample
    exact ⟨rfl, low, high, fun _ _ _ _ => by omega, smoothRate_stands⟩

end Sys2Proof.Machine
end

section
/-! PROOFS. The evaluation of a catchment: the levels due (R84), the gauge-derived level's rise (R85) and stepwise fall (R86), and the
effective level formed from it (R89). -/

namespace Sys2Proof.Machine

/-! ### Levels -/

theorem AlertLevel.greater_code (a b : AlertLevel) : (a.greater b).code = max a.code b.code := by
  rw [greater]
  split_ifs <;> omega

theorem AlertLevel.lower_code {a : AlertLevel} (h : a ≠ .noAlert) : a.lower.code + 1 = a.code := by
  cases a with
  | noAlert => exact absurd rfl h
  | watch | warning | severe => rfl

/-! ### The levels due and the lowering condition (R84, R86) -/

section
variable (d : CatchmentDef) (intensity depth : Nat) (level : AlertLevel)

theorem CatchmentDef.isDue_iff : d.isDue intensity depth level = true ↔
    d.intensityOf level ≤ intensity ∨ d.depthOf level ≠ 0 ∧ d.depthOf level ≤ depth := by
  simp [isDue]

theorem CatchmentDef.lowering_iff : d.lowering intensity depth level = true ↔
    intensity < d.intensityOf level - d.hysteresis ∧ (d.depthOf level = 0 ∨ depth < d.depthOf level) := by
  simp [lowering]

/-- The raw level is the highest level due (R84). -/
theorem CatchmentDef.rawLevel_highest :
    (d.isDue intensity depth .severe = true → d.rawLevel intensity depth = .severe) ∧
    (¬d.isDue intensity depth .severe = true →
      (d.isDue intensity depth .warning = true → d.rawLevel intensity depth = .warning) ∧
      (¬d.isDue intensity depth .warning = true →
        (d.isDue intensity depth .watch = true → d.rawLevel intensity depth = .watch) ∧
        (¬d.isDue intensity depth .watch = true → d.rawLevel intensity depth = .noAlert))) := by
  rw [rawLevel]
  refine ⟨fun hs => if_pos hs, fun hs => ?_⟩
  rw [if_neg hs]
  refine ⟨fun hw => if_pos hw, fun hw => ?_⟩
  rw [if_neg hw]
  exact ⟨fun ha => if_pos ha, fun ha => if_neg ha⟩

/-- A row of the three levels with their thresholds holds a level above NONE with the thresholds of that level. -/
theorem CatchmentDef.thresholds_of_mem {d : CatchmentDef} {level : AlertLevel} {iG dG : Nat}
    (h : (level, iG, dG) ∈ [(AlertLevel.watch, d.iWatch, d.dWatch), (.warning, d.iWarning, d.dWarning),
      (.severe, d.iSevere, d.dSevere)]) :
    level ≠ .noAlert ∧ iG = d.intensityOf level ∧ dG = d.depthOf level := by
  simp only [List.mem_cons, List.not_mem_nil, or_false, Prod.mk.injEq] at h
  obtain ⟨rfl, rfl, rfl⟩ | ⟨rfl, rfl, rfl⟩ | ⟨rfl, rfl, rfl⟩ := h <;> exact ⟨nofun, rfl, rfl⟩

end

/-! ### The gauge-derived level (R85, R86) -/

section
variable {c : Catchment} {now intensity depth : Nat}

theorem Catchment.nextGaugeLevel_of_rise (h : c.gaugeLevel.code < (c.defn.rawLevel intensity depth).code) :
    c.nextGaugeLevel now intensity depth = (c.defn.rawLevel intensity depth, none) := if_pos h

theorem Catchment.nextGaugeLevel_of_noAlert (hraw : (c.defn.rawLevel intensity depth).code ≤ c.gaugeLevel.code)
    (h : c.gaugeLevel = .noAlert) : c.nextGaugeLevel now intensity depth = (.noAlert, none) := by
  rw [nextGaugeLevel, if_neg hraw.not_gt, if_pos h]

/-- Above NONE and without a rise, the lowering condition of the level decides (R86). -/
theorem Catchment.nextGaugeLevel_of_no_rise (hraw : (c.defn.rawLevel intensity depth).code ≤ c.gaugeLevel.code)
    (h : c.gaugeLevel ≠ .noAlert) :
    (c.defn.lowering intensity depth c.gaugeLevel = false →
      c.nextGaugeLevel now intensity depth = (c.gaugeLevel, none)) ∧
    (c.defn.lowering intensity depth c.gaugeLevel = true →
      (c.holdStart = none → c.nextGaugeLevel now intensity depth = (c.gaugeLevel, some now)) ∧
      ∀ start, c.holdStart = some start →
        c.nextGaugeLevel now intensity depth =
          if start + c.defn.holdDown ≤ now then
            (c.gaugeLevel.lower, if c.gaugeLevel.lower = .noAlert then none else some now)
          else (c.gaugeLevel, some start)) := by
  rw [nextGaugeLevel, if_neg hraw.not_gt, if_neg h]
  refine ⟨fun hlow => ?_, fun hlow => ⟨fun hs => ?_, fun start hs => ?_⟩⟩
  · rw [hlow, if_neg Bool.false_ne_true]
  · rw [if_pos hlow, hs]
  · rw [if_pos hlow, hs]

end

/-! ### The effective level formed after it (R89) -/

theorem Catchment.formedLevel_code (c : Catchment) :
    c.formedLevel.code = max c.gaugeLevel.code ((c.floor.map fun f => f.level.code).getD 0) := by
  rw [formedLevel]
  cases c.floor with
  | none => exact (Nat.max_zero _).symm
  | some f => exact AlertLevel.greater_code _ _

/-- Forming the effective level brings it to the formed level and leaves what it is formed from. -/
theorem Catchment.formEffective_levels (now : Nat) (c : Catchment) :
    (c.formEffective now).catchment.effective.code = c.formedLevel.code ∧
    (c.formEffective now).catchment.gaugeLevel = c.gaugeLevel ∧
    (c.formEffective now).catchment.holdStart = c.holdStart ∧ (c.formEffective now).catchment.floor = c.floor := by
  simp only [formEffective]
  split
  · exact ⟨rfl, rfl, rfl, rfl⟩
  · split
    · exact ⟨rfl, rfl, rfl, rfl⟩
    · exact ⟨by dsimp only; omega, rfl, rfl, rfl⟩

/-- The peak of R92 is the only field it touches. -/
theorem Catchment.keepPeak_eq (intensity : Nat) (c : Catchment) :
    c.keepPeak intensity = { c with peak := (c.keepPeak intensity).peak } := by
  rw [keepPeak]
  split_ifs <;> rfl

/-- An evaluation takes the next gauge-derived level and hold-down start, leaves the floor, and forms the effective level of the two. -/
theorem Catchment.evaluate_levels {now intensity depth : Nat} {c n : Catchment}
    (hn : n = (c.evaluate now intensity depth).catchment) :
    (n.gaugeLevel, n.holdStart) = c.nextGaugeLevel now intensity depth ∧ n.floor = c.floor ∧
      n.effective.code = max n.gaugeLevel.code ((n.floor.map fun f => f.level.code).getD 0) := by
  subst hn
  obtain ⟨heff, hlevel, hhold, hfloor⟩ := formEffective_levels now
    { c with lastIntensity := intensity, lastDepth := depth, gaugeLevel := (c.nextGaugeLevel now intensity depth).1
             holdStart := (c.nextGaugeLevel now intensity depth).2 }
  rw [formedLevel_code] at heff
  simp only [evaluate]
  split_ifs
  · rw [heff, hlevel, hhold, hfloor]
    exact ⟨rfl, rfl, rfl⟩
  · rw [keepPeak_eq, heff, hlevel, hhold, hfloor]
    exact ⟨rfl, rfl, rfl⟩

/-- Settles O24: the raw level by the levels due; the gauge-derived level by the cases of its next value. -/
theorem gaugeLevelRisesAndFalls : Obligations.GaugeLevelRisesAndFalls := by
  refine ⟨fun d intensity depth => ?_, fun c now intensity depth => ⟨_, rfl, ?_⟩⟩
  · have highest := d.rawLevel_highest intensity depth
    simp only [CatchmentDef.isDue_iff] at highest
    exact highest
  generalize hn : (c.evaluate now intensity depth).catchment = n
  obtain ⟨hnext, -, heff⟩ := Catchment.evaluate_levels hn.symm
  refine ⟨heff, fun hrise => ?_, fun hraw => ⟨fun hnone => ?_, fun iG dG hmem => ?_⟩⟩
  · rwa [Catchment.nextGaugeLevel_of_rise hrise, Prod.mk.injEq] at hnext
  · rwa [Catchment.nextGaugeLevel_of_noAlert hraw hnone, Prod.mk.injEq] at hnext
  obtain ⟨hlevel, rfl, rfl⟩ := CatchmentDef.thresholds_of_mem hmem
  obtain ⟨stays, lowers⟩ := Catchment.nextGaugeLevel_of_no_rise (now := now) hraw hlevel
  rw [← CatchmentDef.lowering_iff]
  refine ⟨fun hfails => ?_, fun hi hd => ?_⟩
  · rwa [stays (Bool.eq_false_iff.2 hfails), Prod.mk.injEq] at hnext
  obtain ⟨starts, runs⟩ := lowers ((CatchmentDef.lowering_iff ..).2 ⟨hi, hd⟩)
  refine ⟨fun hs => ?_, fun start hs => ⟨fun hover => ?_, fun hwait => ?_⟩⟩
  · rwa [starts hs, Prod.mk.injEq] at hnext
  · rw [runs start hs, if_pos hover, Prod.mk.injEq] at hnext
    obtain ⟨hlower, hstart⟩ := hnext
    rw [hstart, hlower]
    exact ⟨AlertLevel.lower_code hlevel, rfl⟩
  · rwa [runs start hs, if_neg hwait.not_ge, Prod.mk.injEq] at hnext

end Sys2Proof.Machine
end

section
/-! PROOFS. The run order list a computation leaves: which tanks are eligible (R112), their classes (R114), and grant order (R115). -/

namespace Sys2Proof.Machine

/-! ### Classes (R114) -/

/-- A spill that is not quiet is a candidate or an open event. -/
theorem Spilling.candidate_or_event_iff (sp : Spilling) : sp.hasCandidate = true ∨ sp.hasEvent = true ↔ sp ≠ .quiet := by
  cases sp <;> simp [hasCandidate, hasEvent]

theorem AlertLevel.heavy_iff (a : AlertLevel) : a.heavy = true ↔ a = .warning ∨ a = .severe := by
  cases a <;> decide

/-- The class of R114; an undefined catchment counts as one at NONE (log 19). -/
theorem tankClass_eq (s : State) (t : Tank) (v : Service) : tankClass s t v =
    if v.spilling ≠ .quiet ∨ v.level.imminent = true then 0
    else match s.catchments[t.defn.catchment] with
      | some c => if c.effective = .warning ∨ c.effective = .severe then 1 else 2
      | none => 2 := by
  simp only [tankClass, Bool.or_eq_true, Spilling.candidate_or_event_iff, AlertLevel.heavy_iff, State.effectiveLevel]
  cases s.catchments[t.defn.catchment] with
  | none => simp only [reduceCtorEq, or_self, if_false]
  | some c => rfl

/-! ### Eligible tanks (R112) -/

theorem aboveDry_iff (t : Tank) (v : Service) : aboveDry t v = true ↔
    ∃ (table : StageTable) (volume : Nat), t.stage = some table ∧ v.level.volume = some volume ∧ table.vDry < volume := by
  rw [aboveDry]
  cases t.stage with
  | none => cases v.level.volume <;> simp
  | some table => cases v.level.volume <;> simp

theorem State.eligible_inService {s : State} {i : Fin 32} (h : s.eligible i = true) : ∃ t v, s.serviceAt i = some (t, v) := by
  rw [eligible] at h
  cases hs : s.serviceAt i with
  | none => simp [hs] at h
  | some p => exact ⟨p.1, p.2, rfl⟩

/-- The conditions of R112 on a tank that is IN_SERVICE. -/
theorem State.eligible_of_serviceAt {s : State} {i : Fin 32} {t : Tank} {v : Service} (h : s.serviceAt i = some (t, v)) :
    s.eligible i = true ↔ t.pendingMode.mode = .auto ∧ t.inForce.mode = .auto ∧ v.op ≠ .awaitLevel ∧ v.op ≠ .faulted ∧
      t.inhibited = false ∧ aboveDry t v = true := by
  simp [eligible, h, and_assoc]

theorem State.eligible_iff (s : State) (i : Fin 32) : s.eligible i = true ↔
    ∃ (t : Tank) (v : Service) (table : StageTable) (volume : Nat), s.tanks[i] = some t ∧ t.service = some v ∧
      t.pendingMode.mode = .auto ∧ t.inForce.mode = .auto ∧ v.op ≠ .awaitLevel ∧ v.op ≠ .faulted ∧ t.inhibited = false ∧
      t.stage = some table ∧ v.level.volume = some volume ∧ table.vDry < volume := by
  constructor
  · intro h
    obtain ⟨t, v, hs⟩ := eligible_inService h
    obtain ⟨ht, hv⟩ := serviceAt_eq_some.1 hs
    obtain ⟨hpending, hforce, hawait, hfault, hinhibit, habove⟩ := (eligible_of_serviceAt hs).1 h
    obtain ⟨table, volume, hvolume⟩ := (aboveDry_iff t v).1 habove
    exact ⟨t, v, table, volume, ht, hv, hpending, hforce, hawait, hfault, hinhibit, hvolume⟩
  · rintro ⟨t, v, table, volume, ht, hv, hpending, hforce, hawait, hfault, hinhibit, hvolume⟩
    exact (eligible_of_serviceAt (serviceAt_of ht hv)).2
      ⟨hpending, hforce, hawait, hfault, hinhibit, (aboveDry_iff t v).2 ⟨table, volume, hvolume⟩⟩

/-! ### Grant order (R115) -/

section
variable {s : State} {i j : Fin 32}

theorem State.grantKey_of_serviceAt {t : Tank} {v : Service} (h : s.serviceAt i = some (t, v)) :
    s.grantKey i = (tankClass s t v * 16 + t.defn.basePriority) * 32 + i := by
  simp [grantKey, h]

/-- Keys of distinct tanks differ, since base_priority is below 16 and the index below 32: a key not above another's is the
lexicographic order of R115. -/
theorem State.grantBefore_of_grantKey_le (hi : s.eligible i = true) (hj : s.eligible j = true) (hne : i ≠ j)
    (hle : s.grantKey i ≤ s.grantKey j) : GrantBefore s i j := by
  obtain ⟨t, v, hp⟩ := eligible_inService hi
  obtain ⟨t', v', hq⟩ := eligible_inService hj
  rw [grantKey_of_serviceAt hp, grantKey_of_serviceAt hq] at hle
  refine ⟨(t, v), hp, (t', v'), hq, ?_⟩
  dsimp only
  omega

theorem State.mem_grantOrder : i ∈ s.grantOrder ↔ s.eligible i = true := by
  simp [grantOrder, List.mem_insertionSort]

theorem State.grantOrder_perm (s : State) : s.grantOrder.Perm ((List.finRange 32).filter s.eligible) :=
  List.perm_insertionSort ..

theorem State.grantOrder_nodup (s : State) : s.grantOrder.Nodup :=
  s.grantOrder_perm.nodup_iff.2 ((List.nodup_finRange 32).filter _)

theorem State.grantOrder_length_le (s : State) : s.grantOrder.length ≤ 32 := by
  simpa [s.grantOrder_perm.length_eq] using List.length_filter_le s.eligible (List.finRange 32)

theorem State.grantOrder_keys (s : State) : s.grantOrder.Pairwise fun i j => s.grantKey i ≤ s.grantKey j :=
  have : Std.Total fun i j => s.grantKey i ≤ s.grantKey j := ⟨fun _ _ => Nat.le_total ..⟩
  have : IsTrans (Fin 32) fun i j => s.grantKey i ≤ s.grantKey j := ⟨fun _ _ _ => Nat.le_trans⟩
  List.pairwise_insertionSort ..

theorem State.grantOrder_pairwise (s : State) : s.grantOrder.Pairwise (GrantBefore s) :=
  (s.grantOrder_keys.and s.grantOrder_nodup).imp_of_mem fun hi hj ⟨hle, hne⟩ =>
    grantBefore_of_grantKey_le (mem_grantOrder.1 hi) (mem_grantOrder.1 hj) hne hle

end

/-- A computation replaces the run order list by the eligible tanks in grant order (R115), whether or not it posts BUDGET_OVERRUN. -/
theorem computation_runOrder (s : State) : (computation s).alloc.runOrder = s.grantOrder := by
  rw [computation]
  split_ifs
  · rw [State.postAllocation_alloc]
  · rfl

/-- Settles O36: the list is the grant order, a sort of the eligible tanks by a key that lists class, base_priority and index. -/
theorem runListInGrantOrder : Obligations.RunListInGrantOrder := by
  intro s
  rw [computation_runOrder]
  exact ⟨fun i => State.mem_grantOrder.trans (s.eligible_iff i), fun _ => State.mem_grantOrder.symm,
    s.grantOrder_nodup, s.grantOrder_length_le, s.grantOrder_pairwise, tankClass_eq s⟩

end Sys2Proof.Machine
end

section
/-! PROOFS. IDENTIFY: the frame it is read from and its reply (R190). -/

namespace Sys2Proof.Machine

/-- Code 35 names IDENTIFY, whose frame carries no payload (section 10.6). -/
theorem parsePayload_identify (payload : List Byte) : parsePayload 35 payload = bareRequest .identify payload := rfl

/-- The family number takes two bytes, and each field after it is the one byte it names (R190). -/
theorem answerIdentify_eq (s : State) : answerIdentify s = accept (bytesOf 2 3210 ++ [1, 1, 32, 12, 8]) s := by
  have hfields : joinFields [2, 1, 1, 1, 1, 1] [3210, 1, 1, 32, 12, 8] = bytesOf 2 3210 ++ [1, 1, 32, 12, 8] := by
    simp [joinFields, bytesOf]
  rw [answerIdentify, hfields]

/-- Settles O11: code 35 is read as a request without payload, and the taken request's answer is accepted with its state as it was. -/
theorem identifyAnswersFamily : Obligations.IdentifyAnswersFamily := by
  refine ⟨fun payload => ?parsed, fun s tag h => ?answered⟩
  case parsed => rw [parsePayload_identify, bareRequest]
  case answered => rw [exec_identify_taken h, answerIdentify_eq, accept_stored]

end Sys2Proof.Machine
end

section
/-! PROOFS. One lemma per field per update, for the operations that are made of the named updates: what each leaves unchanged. The laws
that a step keeps, and the statements about single commands, use these and do not unfold the operations. -/

namespace Sys2Proof.Machine

variable (s : State)

/-- Two states with the same fields are the same. -/
theorem State.ext_fields {s t : State} (pending : s.pending = t.pending) (resetAsserted : s.resetAsserted = t.resetAsserted)
    (pins : s.pins = t.pins) (ds : s.ds = t.ds) (port : s.port = t.port) (overrun : s.overrun = t.overrun)
    (transaction : s.transaction = t.transaction) (shiftedOut : s.shiftedOut = t.shiftedOut)
    (freeCount : s.freeCount = t.freeCount) (tanks : s.tanks = t.tanks) (orders : s.orders = t.orders)
    (gauges : s.gauges = t.gauges) (catchments : s.catchments = t.catchments) (alerts : s.alerts = t.alerts)
    (alloc : s.alloc = t.alloc) (guard : s.guard = t.guard) (windowHours : s.windowHours = t.windowHours)
    (notices : s.notices = t.notices) : s = t := by
  cases s
  cases t
  subst_vars
  rfl

/-! ### stallStage -/

@[simp] theorem stallStage_pending : (stallStage s).pending = s.pending := by simp [stallStage]
@[simp] theorem stallStage_resetAsserted : (stallStage s).resetAsserted = s.resetAsserted := by simp [stallStage]
@[simp] theorem stallStage_pins : (stallStage s).pins = s.pins := by simp [stallStage]
@[simp] theorem stallStage_ds : (stallStage s).ds = s.ds := by simp [stallStage]
@[simp] theorem stallStage_port : (stallStage s).port = s.port := by simp [stallStage]
@[simp] theorem stallStage_overrun : (stallStage s).overrun = s.overrun := by simp [stallStage]
@[simp] theorem stallStage_transaction : (stallStage s).transaction = s.transaction := by simp [stallStage]
@[simp] theorem stallStage_shiftedOut : (stallStage s).shiftedOut = s.shiftedOut := by simp [stallStage]
@[simp] theorem stallStage_freeCount : (stallStage s).freeCount = s.freeCount := by simp [stallStage]
@[simp] theorem stallStage_gauges : (stallStage s).gauges = s.gauges := by simp [stallStage]
@[simp] theorem stallStage_catchments : (stallStage s).catchments = s.catchments := by simp [stallStage]
@[simp] theorem stallStage_alerts : (stallStage s).alerts = s.alerts := by simp [stallStage]
@[simp] theorem stallStage_guard : (stallStage s).guard = s.guard := by simp [stallStage]
@[simp] theorem stallStage_windowHours : (stallStage s).windowHours = s.windowHours := by simp [stallStage]

/-! ### stopAllocator -/

@[simp] theorem stopAllocator_pending : (stopAllocator s).pending = s.pending := by rfl
@[simp] theorem stopAllocator_resetAsserted : (stopAllocator s).resetAsserted = s.resetAsserted := by rfl
@[simp] theorem stopAllocator_pins : (stopAllocator s).pins = s.pins := by rfl
@[simp] theorem stopAllocator_ds : (stopAllocator s).ds = s.ds := by rfl
@[simp] theorem stopAllocator_port : (stopAllocator s).port = s.port := by rfl
@[simp] theorem stopAllocator_overrun : (stopAllocator s).overrun = s.overrun := by rfl
@[simp] theorem stopAllocator_transaction : (stopAllocator s).transaction = s.transaction := by rfl
@[simp] theorem stopAllocator_shiftedOut : (stopAllocator s).shiftedOut = s.shiftedOut := by rfl
@[simp] theorem stopAllocator_freeCount : (stopAllocator s).freeCount = s.freeCount := by rfl
@[simp] theorem stopAllocator_tanks : (stopAllocator s).tanks = s.tanks := by rfl
@[simp] theorem stopAllocator_orders : (stopAllocator s).orders = s.orders := by rfl
@[simp] theorem stopAllocator_gauges : (stopAllocator s).gauges = s.gauges := by rfl
@[simp] theorem stopAllocator_catchments : (stopAllocator s).catchments = s.catchments := by rfl
@[simp] theorem stopAllocator_alerts : (stopAllocator s).alerts = s.alerts := by rfl
@[simp] theorem stopAllocator_guard : (stopAllocator s).guard = s.guard := by rfl
@[simp] theorem stopAllocator_windowHours : (stopAllocator s).windowHours = s.windowHours := by rfl
@[simp] theorem stopAllocator_notices : (stopAllocator s).notices = s.notices := by rfl

/-! ### zinhEvent -/

@[simp] theorem zinhEvent_pending (z : Fin 4) : (zinhEvent z s).pending = s.pending := by simp [zinhEvent]
@[simp] theorem zinhEvent_resetAsserted (z : Fin 4) : (zinhEvent z s).resetAsserted = s.resetAsserted := by simp [zinhEvent]
@[simp] theorem zinhEvent_pins (z : Fin 4) : (zinhEvent z s).pins = s.pins := by simp [zinhEvent]
@[simp] theorem zinhEvent_ds (z : Fin 4) : (zinhEvent z s).ds = s.ds := by simp [zinhEvent]
@[simp] theorem zinhEvent_port (z : Fin 4) : (zinhEvent z s).port = s.port := by simp [zinhEvent]
@[simp] theorem zinhEvent_overrun (z : Fin 4) : (zinhEvent z s).overrun = s.overrun := by simp [zinhEvent]
@[simp] theorem zinhEvent_transaction (z : Fin 4) : (zinhEvent z s).transaction = s.transaction := by simp [zinhEvent]
@[simp] theorem zinhEvent_shiftedOut (z : Fin 4) : (zinhEvent z s).shiftedOut = s.shiftedOut := by simp [zinhEvent]
@[simp] theorem zinhEvent_freeCount (z : Fin 4) : (zinhEvent z s).freeCount = s.freeCount := by simp [zinhEvent]
@[simp] theorem zinhEvent_gauges (z : Fin 4) : (zinhEvent z s).gauges = s.gauges := by simp [zinhEvent]
@[simp] theorem zinhEvent_catchments (z : Fin 4) : (zinhEvent z s).catchments = s.catchments := by simp [zinhEvent]
@[simp] theorem zinhEvent_alerts (z : Fin 4) : (zinhEvent z s).alerts = s.alerts := by simp [zinhEvent]
@[simp] theorem zinhEvent_guard (z : Fin 4) : (zinhEvent z s).guard = s.guard := by simp [zinhEvent]
@[simp] theorem zinhEvent_windowHours (z : Fin 4) : (zinhEvent z s).windowHours = s.windowHours := by simp [zinhEvent]
@[simp] theorem zinhEvent_notices (z : Fin 4) : (zinhEvent z s).notices = s.notices := by simp [zinhEvent]

/-! ### State.reformCatchment -/

@[simp] theorem State.reformCatchment_pending (k : Fin 8) (first : List CatchmentPost) (c : Catchment) : (s.reformCatchment k first c).pending = s.pending := by simp [State.reformCatchment]
@[simp] theorem State.reformCatchment_resetAsserted (k : Fin 8) (first : List CatchmentPost) (c : Catchment) : (s.reformCatchment k first c).resetAsserted = s.resetAsserted := by simp [State.reformCatchment]
@[simp] theorem State.reformCatchment_pins (k : Fin 8) (first : List CatchmentPost) (c : Catchment) : (s.reformCatchment k first c).pins = s.pins := by simp [State.reformCatchment]
@[simp] theorem State.reformCatchment_ds (k : Fin 8) (first : List CatchmentPost) (c : Catchment) : (s.reformCatchment k first c).ds = s.ds := by simp [State.reformCatchment]
@[simp] theorem State.reformCatchment_port (k : Fin 8) (first : List CatchmentPost) (c : Catchment) : (s.reformCatchment k first c).port = s.port := by simp [State.reformCatchment]
@[simp] theorem State.reformCatchment_overrun (k : Fin 8) (first : List CatchmentPost) (c : Catchment) : (s.reformCatchment k first c).overrun = s.overrun := by simp [State.reformCatchment]
@[simp] theorem State.reformCatchment_transaction (k : Fin 8) (first : List CatchmentPost) (c : Catchment) : (s.reformCatchment k first c).transaction = s.transaction := by simp [State.reformCatchment]
@[simp] theorem State.reformCatchment_shiftedOut (k : Fin 8) (first : List CatchmentPost) (c : Catchment) : (s.reformCatchment k first c).shiftedOut = s.shiftedOut := by simp [State.reformCatchment]
@[simp] theorem State.reformCatchment_freeCount (k : Fin 8) (first : List CatchmentPost) (c : Catchment) : (s.reformCatchment k first c).freeCount = s.freeCount := by simp [State.reformCatchment]
@[simp] theorem State.reformCatchment_tanks (k : Fin 8) (first : List CatchmentPost) (c : Catchment) : (s.reformCatchment k first c).tanks = s.tanks := by simp [State.reformCatchment]
@[simp] theorem State.reformCatchment_orders (k : Fin 8) (first : List CatchmentPost) (c : Catchment) : (s.reformCatchment k first c).orders = s.orders := by simp [State.reformCatchment]
@[simp] theorem State.reformCatchment_gauges (k : Fin 8) (first : List CatchmentPost) (c : Catchment) : (s.reformCatchment k first c).gauges = s.gauges := by simp [State.reformCatchment]
@[simp] theorem State.reformCatchment_alloc (k : Fin 8) (first : List CatchmentPost) (c : Catchment) : (s.reformCatchment k first c).alloc = s.alloc := by simp [State.reformCatchment]
@[simp] theorem State.reformCatchment_guard (k : Fin 8) (first : List CatchmentPost) (c : Catchment) : (s.reformCatchment k first c).guard = s.guard := by simp [State.reformCatchment]
@[simp] theorem State.reformCatchment_windowHours (k : Fin 8) (first : List CatchmentPost) (c : Catchment) : (s.reformCatchment k first c).windowHours = s.windowHours := by simp [State.reformCatchment]

/-! ### clearBlocks -/

@[simp] theorem clearBlocks_pending : (clearBlocks s).pending = s.pending := by simp [clearBlocks, clearCatchments, clearGauges]
@[simp] theorem clearBlocks_resetAsserted : (clearBlocks s).resetAsserted = s.resetAsserted := by simp [clearBlocks, clearCatchments, clearGauges]
@[simp] theorem clearBlocks_pins : (clearBlocks s).pins = s.pins := by simp [clearBlocks, clearCatchments, clearGauges]
@[simp] theorem clearBlocks_ds : (clearBlocks s).ds = s.ds := by simp [clearBlocks, clearCatchments, clearGauges]
@[simp] theorem clearBlocks_port : (clearBlocks s).port = s.port := by simp [clearBlocks, clearCatchments, clearGauges]
@[simp] theorem clearBlocks_overrun : (clearBlocks s).overrun = s.overrun := by simp [clearBlocks, clearCatchments, clearGauges]
@[simp] theorem clearBlocks_transaction : (clearBlocks s).transaction = s.transaction := by simp [clearBlocks, clearCatchments, clearGauges]
@[simp] theorem clearBlocks_shiftedOut : (clearBlocks s).shiftedOut = s.shiftedOut := by simp [clearBlocks, clearCatchments, clearGauges]
@[simp] theorem clearBlocks_freeCount : (clearBlocks s).freeCount = s.freeCount := by simp [clearBlocks, clearCatchments, clearGauges]
@[simp] theorem clearBlocks_guard : (clearBlocks s).guard = s.guard := by simp [clearBlocks, clearCatchments, clearGauges]
@[simp] theorem clearBlocks_windowHours : (clearBlocks s).windowHours = s.windowHours := by simp [clearBlocks, clearCatchments, clearGauges]
@[simp] theorem clearBlocks_notices : (clearBlocks s).notices = s.notices := by simp [clearBlocks, clearCatchments, clearGauges]

/-! ### enterTripped -/

@[simp] theorem enterTripped_pending : (enterTripped s).pending = s.pending := by simp [enterTripped]
@[simp] theorem enterTripped_resetAsserted : (enterTripped s).resetAsserted = s.resetAsserted := by simp [enterTripped]
@[simp] theorem enterTripped_pins : (enterTripped s).pins = s.pins := by simp [enterTripped]
@[simp] theorem enterTripped_ds : (enterTripped s).ds = s.ds := by simp [enterTripped]
@[simp] theorem enterTripped_port : (enterTripped s).port = s.port := by simp [enterTripped]
@[simp] theorem enterTripped_overrun : (enterTripped s).overrun = s.overrun := by simp [enterTripped]
@[simp] theorem enterTripped_transaction : (enterTripped s).transaction = s.transaction := by simp [enterTripped]
@[simp] theorem enterTripped_shiftedOut : (enterTripped s).shiftedOut = s.shiftedOut := by simp [enterTripped]
@[simp] theorem enterTripped_freeCount : (enterTripped s).freeCount = s.freeCount := by simp [enterTripped]
@[simp] theorem enterTripped_gauges : (enterTripped s).gauges = s.gauges := by simp [enterTripped]
@[simp] theorem enterTripped_catchments : (enterTripped s).catchments = s.catchments := by simp [enterTripped]
@[simp] theorem enterTripped_alerts : (enterTripped s).alerts = s.alerts := by simp [enterTripped]
@[simp] theorem enterTripped_alloc : (enterTripped s).alloc = s.alloc := by simp [enterTripped]
@[simp] theorem enterTripped_windowHours : (enterTripped s).windowHours = s.windowHours := by simp [enterTripped]

/-! ### enterBlanked -/

@[simp] theorem enterBlanked_pending : (enterBlanked s).pending = s.pending := by simp [enterBlanked]
@[simp] theorem enterBlanked_resetAsserted : (enterBlanked s).resetAsserted = s.resetAsserted := by simp [enterBlanked]
@[simp] theorem enterBlanked_pins : (enterBlanked s).pins = s.pins := by simp [enterBlanked]
@[simp] theorem enterBlanked_ds : (enterBlanked s).ds = s.ds := by simp [enterBlanked]
@[simp] theorem enterBlanked_port : (enterBlanked s).port = s.port := by simp [enterBlanked]
@[simp] theorem enterBlanked_overrun : (enterBlanked s).overrun = s.overrun := by simp [enterBlanked]
@[simp] theorem enterBlanked_transaction : (enterBlanked s).transaction = s.transaction := by simp [enterBlanked]
@[simp] theorem enterBlanked_shiftedOut : (enterBlanked s).shiftedOut = s.shiftedOut := by simp [enterBlanked]
@[simp] theorem enterBlanked_freeCount : (enterBlanked s).freeCount = s.freeCount := by simp [enterBlanked]
@[simp] theorem enterBlanked_tanks : (enterBlanked s).tanks = s.tanks := by simp [enterBlanked]
@[simp] theorem enterBlanked_orders : (enterBlanked s).orders = s.orders := by simp [enterBlanked]
@[simp] theorem enterBlanked_gauges : (enterBlanked s).gauges = s.gauges := by simp [enterBlanked]
@[simp] theorem enterBlanked_catchments : (enterBlanked s).catchments = s.catchments := by simp [enterBlanked]
@[simp] theorem enterBlanked_alerts : (enterBlanked s).alerts = s.alerts := by simp [enterBlanked]
@[simp] theorem enterBlanked_alloc : (enterBlanked s).alloc = s.alloc := by simp [enterBlanked]
@[simp] theorem enterBlanked_windowHours : (enterBlanked s).windowHours = s.windowHours := by simp [enterBlanked]
@[simp] theorem enterBlanked_notices : (enterBlanked s).notices = s.notices := by simp [enterBlanked]

/-! ### The computation -/

/-- The computation written out: it writes next orders and marks, the list, the overrun flag and the last computation record, and posts
BUDGET_OVERRUN where M exceeds B (R109 to R116). -/
theorem computation_eq : computation s = { s with
    orders := Vector.ofFn fun i => s.computedEntry (s.grantWalk s.grantOrder (availableBudget s - s.manualTotal)).amounts i
    alloc := { s.alloc with
      runOrder := s.grantOrder
      overrun := decide (s.alloc.budget < s.manualTotal)
      last := some
        { time := s.now, available := availableBudget s, manual := s.manualTotal
          remaining := (s.grantWalk s.grantOrder (availableBudget s - s.manualTotal)).account } }
    notices := if s.alloc.budget < s.manualTotal then (s.postAllocation .budgetOverrun).notices else s.notices } := by
  rw [computation]
  split <;> rfl

@[simp] theorem computation_pending : (computation s).pending = s.pending := by rw [computation_eq]
@[simp] theorem computation_resetAsserted : (computation s).resetAsserted = s.resetAsserted := by rw [computation_eq]
@[simp] theorem computation_pins : (computation s).pins = s.pins := by rw [computation_eq]
@[simp] theorem computation_ds : (computation s).ds = s.ds := by rw [computation_eq]
@[simp] theorem computation_port : (computation s).port = s.port := by rw [computation_eq]
@[simp] theorem computation_overrun : (computation s).overrun = s.overrun := by rw [computation_eq]
@[simp] theorem computation_transaction : (computation s).transaction = s.transaction := by rw [computation_eq]
@[simp] theorem computation_shiftedOut : (computation s).shiftedOut = s.shiftedOut := by rw [computation_eq]
@[simp] theorem computation_freeCount : (computation s).freeCount = s.freeCount := by rw [computation_eq]
@[simp] theorem computation_tanks : (computation s).tanks = s.tanks := by rw [computation_eq]
@[simp] theorem computation_gauges : (computation s).gauges = s.gauges := by rw [computation_eq]
@[simp] theorem computation_catchments : (computation s).catchments = s.catchments := by rw [computation_eq]
@[simp] theorem computation_alerts : (computation s).alerts = s.alerts := by rw [computation_eq]
@[simp] theorem computation_guard : (computation s).guard = s.guard := by rw [computation_eq]
@[simp] theorem computation_windowHours : (computation s).windowHours = s.windowHours := by rw [computation_eq]
@[simp] theorem computation_alloc : (computation s).alloc = { s.alloc with
    runOrder := s.grantOrder
    overrun := decide (s.alloc.budget < s.manualTotal)
    last := some
      { time := s.now, available := availableBudget s, manual := s.manualTotal
        remaining := (s.grantWalk s.grantOrder (availableBudget s - s.manualTotal)).account } } := by
  rw [computation_eq]
@[simp] theorem computation_orders (i : Nat) (h : i < 32) : (computation s).orders[i] =
    s.computedEntry (s.grantWalk s.grantOrder (availableBudget s - s.manualTotal)).amounts ⟨i, h⟩ := by
  simp [computation_eq]

/-! ### Shed and the budget in force -/

/-- A new B written (R103). -/
def State.putBudget (b : Nat) : State := { s with alloc := { s.alloc with budget := b } }

theorem setBudget_eq (b : Nat) : setBudget b s =
    if s.alloc.running = true ∧ b < s.alloc.budget then shed (s.putBudget b) else s.putBudget b := by
  simp [setBudget, State.putBudget]

@[simp] theorem shed_pending : (shed s).pending = s.pending := by rw [shed]; split <;> simp
@[simp] theorem shed_resetAsserted : (shed s).resetAsserted = s.resetAsserted := by rw [shed]; split <;> simp
@[simp] theorem shed_pins : (shed s).pins = s.pins := by rw [shed]; split <;> simp
@[simp] theorem shed_ds : (shed s).ds = s.ds := by rw [shed]; split <;> simp
@[simp] theorem shed_port : (shed s).port = s.port := by rw [shed]; split <;> simp
@[simp] theorem shed_overrun : (shed s).overrun = s.overrun := by rw [shed]; split <;> simp
@[simp] theorem shed_transaction : (shed s).transaction = s.transaction := by rw [shed]; split <;> simp
@[simp] theorem shed_shiftedOut : (shed s).shiftedOut = s.shiftedOut := by rw [shed]; split <;> simp
@[simp] theorem shed_freeCount : (shed s).freeCount = s.freeCount := by rw [shed]; split <;> simp
@[simp] theorem shed_gauges : (shed s).gauges = s.gauges := by rw [shed]; split <;> simp
@[simp] theorem shed_catchments : (shed s).catchments = s.catchments := by rw [shed]; split <;> simp
@[simp] theorem shed_alerts : (shed s).alerts = s.alerts := by rw [shed]; split <;> simp
@[simp] theorem shed_alloc : (shed s).alloc = s.alloc := by rw [shed]; split <;> simp
@[simp] theorem shed_guard : (shed s).guard = s.guard := by rw [shed]; split <;> simp
@[simp] theorem shed_windowHours : (shed s).windowHours = s.windowHours := by rw [shed]; split <;> simp

@[simp] theorem setBudget_pending (b : Nat) : (setBudget b s).pending = s.pending := by rw [setBudget_eq]; split <;> simp [State.putBudget]
@[simp] theorem setBudget_resetAsserted (b : Nat) : (setBudget b s).resetAsserted = s.resetAsserted := by rw [setBudget_eq]; split <;> simp [State.putBudget]
@[simp] theorem setBudget_pins (b : Nat) : (setBudget b s).pins = s.pins := by rw [setBudget_eq]; split <;> simp [State.putBudget]
@[simp] theorem setBudget_ds (b : Nat) : (setBudget b s).ds = s.ds := by rw [setBudget_eq]; split <;> simp [State.putBudget]
@[simp] theorem setBudget_port (b : Nat) : (setBudget b s).port = s.port := by rw [setBudget_eq]; split <;> simp [State.putBudget]
@[simp] theorem setBudget_overrun (b : Nat) : (setBudget b s).overrun = s.overrun := by rw [setBudget_eq]; split <;> simp [State.putBudget]
@[simp] theorem setBudget_transaction (b : Nat) : (setBudget b s).transaction = s.transaction := by rw [setBudget_eq]; split <;> simp [State.putBudget]
@[simp] theorem setBudget_shiftedOut (b : Nat) : (setBudget b s).shiftedOut = s.shiftedOut := by rw [setBudget_eq]; split <;> simp [State.putBudget]
@[simp] theorem setBudget_freeCount (b : Nat) : (setBudget b s).freeCount = s.freeCount := by rw [setBudget_eq]; split <;> simp [State.putBudget]
@[simp] theorem setBudget_gauges (b : Nat) : (setBudget b s).gauges = s.gauges := by rw [setBudget_eq]; split <;> simp [State.putBudget]
@[simp] theorem setBudget_catchments (b : Nat) : (setBudget b s).catchments = s.catchments := by rw [setBudget_eq]; split <;> simp [State.putBudget]
@[simp] theorem setBudget_alerts (b : Nat) : (setBudget b s).alerts = s.alerts := by rw [setBudget_eq]; split <;> simp [State.putBudget]
@[simp] theorem setBudget_guard (b : Nat) : (setBudget b s).guard = s.guard := by rw [setBudget_eq]; split <;> simp [State.putBudget]
@[simp] theorem setBudget_windowHours (b : Nat) : (setBudget b s).windowHours = s.windowHours := by rw [setBudget_eq]; split <;> simp [State.putBudget]
@[simp] theorem setBudget_alloc (b : Nat) : (setBudget b s).alloc = { s.alloc with budget := b } := by
  rw [setBudget_eq]; split <;> simp [State.putBudget]

/-! ### Promotion -/

@[simp] theorem promoteOrders_alloc : (promoteOrders s).alloc = { s.alloc with
    runOrder := s.alloc.runOrder.filter fun i => !s.tankIs (fun t => t.pendingMode.mode == .manual) i } := by
  simp [promoteOrders]

@[simp] theorem promoteOrders_pending : (promoteOrders s).pending = s.pending := by simp [promoteOrders]
@[simp] theorem promoteOrders_resetAsserted : (promoteOrders s).resetAsserted = s.resetAsserted := by simp [promoteOrders]
@[simp] theorem promoteOrders_pins : (promoteOrders s).pins = s.pins := by simp [promoteOrders]
@[simp] theorem promoteOrders_ds : (promoteOrders s).ds = s.ds := by simp [promoteOrders]
@[simp] theorem promoteOrders_port : (promoteOrders s).port = s.port := by simp [promoteOrders]
@[simp] theorem promoteOrders_overrun : (promoteOrders s).overrun = s.overrun := by simp [promoteOrders]
@[simp] theorem promoteOrders_transaction : (promoteOrders s).transaction = s.transaction := by simp [promoteOrders]
@[simp] theorem promoteOrders_shiftedOut : (promoteOrders s).shiftedOut = s.shiftedOut := by simp [promoteOrders]
@[simp] theorem promoteOrders_freeCount : (promoteOrders s).freeCount = s.freeCount := by simp [promoteOrders]
@[simp] theorem promoteOrders_gauges : (promoteOrders s).gauges = s.gauges := by simp [promoteOrders]
@[simp] theorem promoteOrders_catchments : (promoteOrders s).catchments = s.catchments := by simp [promoteOrders]
@[simp] theorem promoteOrders_alerts : (promoteOrders s).alerts = s.alerts := by simp [promoteOrders]
@[simp] theorem promoteOrders_guard : (promoteOrders s).guard = s.guard := by simp [promoteOrders]
@[simp] theorem promoteOrders_windowHours : (promoteOrders s).windowHours = s.windowHours := by simp [promoteOrders]
@[simp] theorem promoteOrders_notices : (promoteOrders s).notices = s.notices := by simp [promoteOrders]

/-- The moves of the trip machine that leave the Allocator alone (R142 to R145). -/
inductive TripMove : State → State → Prop
  | armed (s : State) : TripMove s (s.setTrip (.armed none))
  | filtering {s : State} (lasts : s.guard.filterTime ≠ 0) : TripMove s (s.setTrip (.armed (startTimer s.ds s.guard.filterTime)))
  | blanked {s : State} (lasts : s.guard.blankTime ≠ 0) : TripMove s (enterBlanked s)
  | tripped (s : State) : TripMove s (enterTripped s)

/-- A chain of moves of the trip machine. -/
abbrev TripMoves : State → State → Prop := Relation.ReflTransGen TripMove

theorem startFilter_moves (s : State) : TripMoves s (startFilter s) := by
  rw [startFilter]
  split
  · exact .single (.tripped s)
  · next lasts => exact .single (.filtering lasts)

theorem enterArmed_moves (s : State) : TripMoves s (enterArmed s) := by
  rw [enterArmed]
  split
  · exact .head (.armed s) (startFilter_moves _)
  · exact .single (.armed s)

theorem sumRose_moves (s : State) : TripMoves s (sumRose s) := by
  rw [sumRose]
  split
  · split
    · exact .refl
    · next lasts => exact .single (.blanked lasts)
  · split
    · exact enterArmed_moves s
    · next lasts => exact .single (.blanked lasts)
  · exact .refl

/-- Promotion is the writing of the orders, and then moves of the trip machine (R131, R144). -/
theorem promotion_moves (s : State) : TripMoves (promoteOrders s) (promotion s) := by
  rw [promotion]
  split
  · exact sumRose_moves _
  · exact .refl

/-- What every move of the trip machine keeps, a chain of them keeps. -/
theorem TripMoves.keeps {α : Type} {f : State → α} (h : ∀ {s t}, TripMove s t → f t = f s) {s t : State} (moves : TripMoves s t) :
    f t = f s := by
  induction moves with
  | refl => rfl
  | tail _ move ih => rw [h move, ih]

section
variable {s t : State}

theorem TripMove.pending (h : TripMove s t) : t.pending = s.pending := by cases h <;> simp
theorem TripMove.resetAsserted (h : TripMove s t) : t.resetAsserted = s.resetAsserted := by cases h <;> simp
theorem TripMove.pins (h : TripMove s t) : t.pins = s.pins := by cases h <;> simp
theorem TripMove.ds (h : TripMove s t) : t.ds = s.ds := by cases h <;> simp
theorem TripMove.port (h : TripMove s t) : t.port = s.port := by cases h <;> simp
theorem TripMove.overrun (h : TripMove s t) : t.overrun = s.overrun := by cases h <;> simp
theorem TripMove.transaction (h : TripMove s t) : t.transaction = s.transaction := by cases h <;> simp
theorem TripMove.shiftedOut (h : TripMove s t) : t.shiftedOut = s.shiftedOut := by cases h <;> simp
theorem TripMove.freeCount (h : TripMove s t) : t.freeCount = s.freeCount := by cases h <;> simp
theorem TripMove.gauges (h : TripMove s t) : t.gauges = s.gauges := by cases h <;> simp
theorem TripMove.catchments (h : TripMove s t) : t.catchments = s.catchments := by cases h <;> simp
theorem TripMove.alerts (h : TripMove s t) : t.alerts = s.alerts := by cases h <;> simp
theorem TripMove.alloc (h : TripMove s t) : t.alloc = s.alloc := by cases h <;> simp
theorem TripMove.windowHours (h : TripMove s t) : t.windowHours = s.windowHours := by cases h <;> simp
theorem TripMove.guard_lineHigh (h : TripMove s t) : t.guard.lineHigh = s.guard.lineHigh := by
  cases h <;> simp [enterTripped, enterBlanked]
theorem TripMove.guard_extensionCount (h : TripMove s t) : t.guard.extensionCount = s.guard.extensionCount := by
  cases h <;> simp [enterTripped, enterBlanked]
theorem TripMove.guard_filterTime (h : TripMove s t) : t.guard.filterTime = s.guard.filterTime := by
  cases h <;> simp [enterTripped, enterBlanked]
theorem TripMove.guard_blankTime (h : TripMove s t) : t.guard.blankTime = s.guard.blankTime := by
  cases h <;> simp [enterTripped, enterBlanked]
theorem TripMove.guard_offTime (h : TripMove s t) : t.guard.offTime = s.guard.offTime := by
  cases h <;> simp [enterTripped, enterBlanked]
theorem TripMove.guard_longestHold (h : TripMove s t) : t.guard.longestHold = s.guard.longestHold := by
  cases h <;> simp [enterTripped, enterBlanked]
theorem TripMove.guard_hold (h : TripMove s t) : t.guard.hold = s.guard.hold := by
  cases h <;> simp [enterTripped, enterBlanked]

end

@[simp] theorem promotion_pending : (promotion s).pending = s.pending :=
  (TripMoves.keeps TripMove.pending (promotion_moves s)).trans (promoteOrders_pending s)
@[simp] theorem promotion_resetAsserted : (promotion s).resetAsserted = s.resetAsserted :=
  (TripMoves.keeps TripMove.resetAsserted (promotion_moves s)).trans (promoteOrders_resetAsserted s)
@[simp] theorem promotion_pins : (promotion s).pins = s.pins :=
  (TripMoves.keeps TripMove.pins (promotion_moves s)).trans (promoteOrders_pins s)
@[simp] theorem promotion_ds : (promotion s).ds = s.ds :=
  (TripMoves.keeps TripMove.ds (promotion_moves s)).trans (promoteOrders_ds s)
@[simp] theorem promotion_port : (promotion s).port = s.port :=
  (TripMoves.keeps TripMove.port (promotion_moves s)).trans (promoteOrders_port s)
@[simp] theorem promotion_overrun : (promotion s).overrun = s.overrun :=
  (TripMoves.keeps TripMove.overrun (promotion_moves s)).trans (promoteOrders_overrun s)
@[simp] theorem promotion_transaction : (promotion s).transaction = s.transaction :=
  (TripMoves.keeps TripMove.transaction (promotion_moves s)).trans (promoteOrders_transaction s)
@[simp] theorem promotion_shiftedOut : (promotion s).shiftedOut = s.shiftedOut :=
  (TripMoves.keeps TripMove.shiftedOut (promotion_moves s)).trans (promoteOrders_shiftedOut s)
@[simp] theorem promotion_freeCount : (promotion s).freeCount = s.freeCount :=
  (TripMoves.keeps TripMove.freeCount (promotion_moves s)).trans (promoteOrders_freeCount s)
@[simp] theorem promotion_gauges : (promotion s).gauges = s.gauges :=
  (TripMoves.keeps TripMove.gauges (promotion_moves s)).trans (promoteOrders_gauges s)
@[simp] theorem promotion_catchments : (promotion s).catchments = s.catchments :=
  (TripMoves.keeps TripMove.catchments (promotion_moves s)).trans (promoteOrders_catchments s)
@[simp] theorem promotion_alerts : (promotion s).alerts = s.alerts :=
  (TripMoves.keeps TripMove.alerts (promotion_moves s)).trans (promoteOrders_alerts s)
@[simp] theorem promotion_windowHours : (promotion s).windowHours = s.windowHours :=
  (TripMoves.keeps TripMove.windowHours (promotion_moves s)).trans (promoteOrders_windowHours s)
@[simp] theorem promotion_alloc : (promotion s).alloc = { s.alloc with
    runOrder := s.alloc.runOrder.filter fun i => !s.tankIs (fun t => t.pendingMode.mode == .manual) i } :=
  (TripMoves.keeps TripMove.alloc (promotion_moves s)).trans (promoteOrders_alloc s)
@[simp] theorem promotion_guard_lineHigh : (promotion s).guard.lineHigh = s.guard.lineHigh :=
  (TripMoves.keeps (f := fun s => s.guard.lineHigh) TripMove.guard_lineHigh (promotion_moves s)).trans (by rw [promoteOrders_guard])
@[simp] theorem promotion_guard_extensionCount : (promotion s).guard.extensionCount = s.guard.extensionCount :=
  (TripMoves.keeps (f := fun s => s.guard.extensionCount) TripMove.guard_extensionCount (promotion_moves s)).trans (by rw [promoteOrders_guard])
@[simp] theorem promotion_guard_filterTime : (promotion s).guard.filterTime = s.guard.filterTime :=
  (TripMoves.keeps (f := fun s => s.guard.filterTime) TripMove.guard_filterTime (promotion_moves s)).trans (by rw [promoteOrders_guard])
@[simp] theorem promotion_guard_blankTime : (promotion s).guard.blankTime = s.guard.blankTime :=
  (TripMoves.keeps (f := fun s => s.guard.blankTime) TripMove.guard_blankTime (promotion_moves s)).trans (by rw [promoteOrders_guard])
@[simp] theorem promotion_guard_offTime : (promotion s).guard.offTime = s.guard.offTime :=
  (TripMoves.keeps (f := fun s => s.guard.offTime) TripMove.guard_offTime (promotion_moves s)).trans (by rw [promoteOrders_guard])
@[simp] theorem promotion_guard_longestHold : (promotion s).guard.longestHold = s.guard.longestHold :=
  (TripMoves.keeps (f := fun s => s.guard.longestHold) TripMove.guard_longestHold (promotion_moves s)).trans (by rw [promoteOrders_guard])
@[simp] theorem promotion_guard_hold : (promotion s).guard.hold = s.guard.hold :=
  (TripMoves.keeps (f := fun s => s.guard.hold) TripMove.guard_hold (promotion_moves s)).trans (by rw [promoteOrders_guard])

/-! ### Settings -/

section
variable (n v : Nat)

@[simp] theorem State.writeSetting_pending : (s.writeSetting n v).pending = s.pending := by
  rw [State.writeSetting.eq_def]; split <;> simp
@[simp] theorem State.writeSetting_resetAsserted : (s.writeSetting n v).resetAsserted = s.resetAsserted := by
  rw [State.writeSetting.eq_def]; split <;> simp
@[simp] theorem State.writeSetting_pins : (s.writeSetting n v).pins = s.pins := by
  rw [State.writeSetting.eq_def]; split <;> simp
@[simp] theorem State.writeSetting_ds : (s.writeSetting n v).ds = s.ds := by
  rw [State.writeSetting.eq_def]; split <;> simp
@[simp] theorem State.writeSetting_port : (s.writeSetting n v).port = s.port := by
  rw [State.writeSetting.eq_def]; split <;> simp
@[simp] theorem State.writeSetting_overrun : (s.writeSetting n v).overrun = s.overrun := by
  rw [State.writeSetting.eq_def]; split <;> simp
@[simp] theorem State.writeSetting_transaction : (s.writeSetting n v).transaction = s.transaction := by
  rw [State.writeSetting.eq_def]; split <;> simp
@[simp] theorem State.writeSetting_shiftedOut : (s.writeSetting n v).shiftedOut = s.shiftedOut := by
  rw [State.writeSetting.eq_def]; split <;> simp
@[simp] theorem State.writeSetting_freeCount : (s.writeSetting n v).freeCount = s.freeCount := by
  rw [State.writeSetting.eq_def]; split <;> simp
@[simp] theorem State.writeSetting_orders : (s.writeSetting n v).orders = s.orders := by
  rw [State.writeSetting.eq_def]; split <;> simp
@[simp] theorem State.writeSetting_gauges : (s.writeSetting n v).gauges = s.gauges := by
  rw [State.writeSetting.eq_def]; split <;> simp
@[simp] theorem State.writeSetting_catchments : (s.writeSetting n v).catchments = s.catchments := by
  rw [State.writeSetting.eq_def]; split <;> simp
@[simp] theorem State.writeSetting_alloc_running : (s.writeSetting n v).alloc.running = s.alloc.running := by
  rw [State.writeSetting.eq_def]; split <;> simp
@[simp] theorem State.writeSetting_alloc_banks : (s.writeSetting n v).alloc.banks = s.alloc.banks := by
  rw [State.writeSetting.eq_def]; split <;> simp
@[simp] theorem State.writeSetting_alloc_observed : (s.writeSetting n v).alloc.observed = s.alloc.observed := by
  rw [State.writeSetting.eq_def]; split <;> simp
@[simp] theorem State.writeSetting_alloc_selected : (s.writeSetting n v).alloc.selected = s.alloc.selected := by
  rw [State.writeSetting.eq_def]; split <;> simp
@[simp] theorem State.writeSetting_alloc_settleTimer : (s.writeSetting n v).alloc.settleTimer = s.alloc.settleTimer := by
  rw [State.writeSetting.eq_def]; split <;> simp
@[simp] theorem State.writeSetting_alloc_budget : (s.writeSetting n v).alloc.budget = s.alloc.budget := by
  rw [State.writeSetting.eq_def]; split <;> simp
@[simp] theorem State.writeSetting_alloc_periodTimer : (s.writeSetting n v).alloc.periodTimer = s.alloc.periodTimer := by
  rw [State.writeSetting.eq_def]; split <;> simp
@[simp] theorem State.writeSetting_alloc_runOrder : (s.writeSetting n v).alloc.runOrder = s.alloc.runOrder := by
  rw [State.writeSetting.eq_def]; split <;> simp
@[simp] theorem State.writeSetting_alloc_overrun : (s.writeSetting n v).alloc.overrun = s.alloc.overrun := by
  rw [State.writeSetting.eq_def]; split <;> simp
@[simp] theorem State.writeSetting_alloc_last : (s.writeSetting n v).alloc.last = s.alloc.last := by
  rw [State.writeSetting.eq_def]; split <;> simp
@[simp] theorem State.writeSetting_alerts_evalTimer : (s.writeSetting n v).alerts.evalTimer = s.alerts.evalTimer := by
  rw [State.writeSetting.eq_def]; split <;> simp
@[simp] theorem State.writeSetting_alerts_rainAlert : (s.writeSetting n v).alerts.rainAlert = s.alerts.rainAlert := by
  rw [State.writeSetting.eq_def]; split <;> simp
@[simp] theorem State.writeSetting_guard_trip : (s.writeSetting n v).guard.trip = s.guard.trip := by
  rw [State.writeSetting.eq_def]; split <;> simp
@[simp] theorem State.writeSetting_guard_lineHigh : (s.writeSetting n v).guard.lineHigh = s.guard.lineHigh := by
  rw [State.writeSetting.eq_def]; split <;> simp
@[simp] theorem State.writeSetting_guard_tripCount : (s.writeSetting n v).guard.tripCount = s.guard.tripCount := by
  rw [State.writeSetting.eq_def]; split <;> simp
@[simp] theorem State.writeSetting_guard_extensionCount : (s.writeSetting n v).guard.extensionCount = s.guard.extensionCount := by
  rw [State.writeSetting.eq_def]; split <;> simp
@[simp] theorem State.writeSetting_guard_hold : (s.writeSetting n v).guard.hold = s.guard.hold := by
  rw [State.writeSetting.eq_def]; split <;> simp

end

end Sys2Proof.Machine
end

section
/-! PROOFS. What a step can do, said once: every command is a chain of events of the part, each one of the updates listed in
`Event`, and the tick is such a chain followed by the advance of the count. A law that every event keeps is kept by every step. -/

namespace Sys2Proof.Machine

/-! ### The events -/

/-- What LEVEL_LOST leaves of a tank, before it is withdrawn (R39, R170). -/
def State.lostTank (s : State) (i : Fin 32) (t : Tank) (v : Service) : Tank :=
  { t with
    book := (closeAtLastReport .lost v t.book).book
    service := some
      { op := formOp t.defn (v.level.expire t.defn s.ds) { v.supervisor with levelLost := true } s.orders[i].active
        level := v.level.expire t.defn s.ds
        supervisor := { v.supervisor with levelLost := true }
        spilling := (closeAtLastReport .lost v t.book).spilling } }

/-- All catchments evaluated, the RAIN_ALERT line formed and the timer restarted (R82). -/
def evaluateAll (s : State) : State :=
  let judged := (({ s with
    catchments := Vector.ofFn fun k => (s.evaluated k).map CatchmentStep.catchment }).postCatchments fun k =>
      match s.evaluated k with
      | some r => r.posts
      | none => []).formRainAlert
  { judged with alerts := { judged.alerts with evalTimer := startTimer s.ds s.alerts.interval } }

/-- The part as RESET_N is released, before the Intake Guard looks at its line (R82, R124, R157). -/
def takeLines (s : State) : State :=
  { s with
    resetAsserted := false
    alerts := { s.alerts with evalTimer := startTimer s.ds s.alerts.interval }
    alloc := { s.alloc with
      observed := capSelNumber s.pins.capSel, selected := capSelNumber s.pins.capSel
      budget := s.alloc.banks[capSelNumber s.pins.capSel] }
    guard := { s.guard with lineHigh := s.pins.intakeHigh } }

/-- A bank's stored budget written (R100). -/
def State.storeBank (i : Fin 8) (b : Nat) (s : State) : State :=
  { s with alloc := { s.alloc with banks := s.alloc.banks.set i b } }

/-- The observed value put in force, before B follows (R102). -/
def State.selectObserved (s : State) : State :=
  { s with alloc := { s.alloc with selected := s.alloc.observed, settleTimer := none } }

/-- The period timer started to run P (R105, R107). -/
def State.startPeriod (s : State) : State :=
  { s with alloc := { s.alloc with periodTimer := startTimer s.ds s.alloc.period } }

section
variable (s : State)

@[simp] theorem State.startPeriod_pending : s.startPeriod.pending = s.pending := rfl
@[simp] theorem State.startPeriod_resetAsserted : s.startPeriod.resetAsserted = s.resetAsserted := rfl
@[simp] theorem State.startPeriod_pins : s.startPeriod.pins = s.pins := rfl
@[simp] theorem State.startPeriod_ds : s.startPeriod.ds = s.ds := rfl
@[simp] theorem State.startPeriod_port : s.startPeriod.port = s.port := rfl
@[simp] theorem State.startPeriod_overrun : s.startPeriod.overrun = s.overrun := rfl
@[simp] theorem State.startPeriod_transaction : s.startPeriod.transaction = s.transaction := rfl
@[simp] theorem State.startPeriod_shiftedOut : s.startPeriod.shiftedOut = s.shiftedOut := rfl
@[simp] theorem State.startPeriod_freeCount : s.startPeriod.freeCount = s.freeCount := rfl
@[simp] theorem State.startPeriod_tanks : s.startPeriod.tanks = s.tanks := rfl
@[simp] theorem State.startPeriod_orders : s.startPeriod.orders = s.orders := rfl
@[simp] theorem State.startPeriod_gauges : s.startPeriod.gauges = s.gauges := rfl
@[simp] theorem State.startPeriod_catchments : s.startPeriod.catchments = s.catchments := rfl
@[simp] theorem State.startPeriod_alerts : s.startPeriod.alerts = s.alerts := rfl
@[simp] theorem State.startPeriod_guard : s.startPeriod.guard = s.guard := rfl
@[simp] theorem State.startPeriod_windowHours : s.startPeriod.windowHours = s.windowHours := rfl
@[simp] theorem State.startPeriod_notices : s.startPeriod.notices = s.notices := rfl
@[simp] theorem State.startPeriod_alloc :
    s.startPeriod.alloc = { s.alloc with periodTimer := startTimer s.ds s.alloc.period } := rfl

@[simp] theorem State.storeBank_pending (i : Fin 8) (b : Nat) : (s.storeBank i b).pending = s.pending := rfl
@[simp] theorem State.storeBank_resetAsserted (i : Fin 8) (b : Nat) : (s.storeBank i b).resetAsserted = s.resetAsserted := rfl
@[simp] theorem State.storeBank_pins (i : Fin 8) (b : Nat) : (s.storeBank i b).pins = s.pins := rfl
@[simp] theorem State.storeBank_ds (i : Fin 8) (b : Nat) : (s.storeBank i b).ds = s.ds := rfl
@[simp] theorem State.storeBank_port (i : Fin 8) (b : Nat) : (s.storeBank i b).port = s.port := rfl
@[simp] theorem State.storeBank_overrun (i : Fin 8) (b : Nat) : (s.storeBank i b).overrun = s.overrun := rfl
@[simp] theorem State.storeBank_transaction (i : Fin 8) (b : Nat) : (s.storeBank i b).transaction = s.transaction := rfl
@[simp] theorem State.storeBank_shiftedOut (i : Fin 8) (b : Nat) : (s.storeBank i b).shiftedOut = s.shiftedOut := rfl
@[simp] theorem State.storeBank_freeCount (i : Fin 8) (b : Nat) : (s.storeBank i b).freeCount = s.freeCount := rfl
@[simp] theorem State.storeBank_tanks (i : Fin 8) (b : Nat) : (s.storeBank i b).tanks = s.tanks := rfl
@[simp] theorem State.storeBank_orders (i : Fin 8) (b : Nat) : (s.storeBank i b).orders = s.orders := rfl
@[simp] theorem State.storeBank_gauges (i : Fin 8) (b : Nat) : (s.storeBank i b).gauges = s.gauges := rfl
@[simp] theorem State.storeBank_catchments (i : Fin 8) (b : Nat) : (s.storeBank i b).catchments = s.catchments := rfl
@[simp] theorem State.storeBank_alerts (i : Fin 8) (b : Nat) : (s.storeBank i b).alerts = s.alerts := rfl
@[simp] theorem State.storeBank_guard (i : Fin 8) (b : Nat) : (s.storeBank i b).guard = s.guard := rfl
@[simp] theorem State.storeBank_windowHours (i : Fin 8) (b : Nat) : (s.storeBank i b).windowHours = s.windowHours := rfl
@[simp] theorem State.storeBank_notices (i : Fin 8) (b : Nat) : (s.storeBank i b).notices = s.notices := rfl
@[simp] theorem State.storeBank_alloc (i : Fin 8) (b : Nat) :
    (s.storeBank i b).alloc = { s.alloc with banks := s.alloc.banks.set i b } := rfl

@[simp] theorem State.selectObserved_pending : s.selectObserved.pending = s.pending := rfl
@[simp] theorem State.selectObserved_resetAsserted : s.selectObserved.resetAsserted = s.resetAsserted := rfl
@[simp] theorem State.selectObserved_pins : s.selectObserved.pins = s.pins := rfl
@[simp] theorem State.selectObserved_ds : s.selectObserved.ds = s.ds := rfl
@[simp] theorem State.selectObserved_port : s.selectObserved.port = s.port := rfl
@[simp] theorem State.selectObserved_overrun : s.selectObserved.overrun = s.overrun := rfl
@[simp] theorem State.selectObserved_transaction : s.selectObserved.transaction = s.transaction := rfl
@[simp] theorem State.selectObserved_shiftedOut : s.selectObserved.shiftedOut = s.shiftedOut := rfl
@[simp] theorem State.selectObserved_freeCount : s.selectObserved.freeCount = s.freeCount := rfl
@[simp] theorem State.selectObserved_tanks : s.selectObserved.tanks = s.tanks := rfl
@[simp] theorem State.selectObserved_orders : s.selectObserved.orders = s.orders := rfl
@[simp] theorem State.selectObserved_gauges : s.selectObserved.gauges = s.gauges := rfl
@[simp] theorem State.selectObserved_catchments : s.selectObserved.catchments = s.catchments := rfl
@[simp] theorem State.selectObserved_alerts : s.selectObserved.alerts = s.alerts := rfl
@[simp] theorem State.selectObserved_guard : s.selectObserved.guard = s.guard := rfl
@[simp] theorem State.selectObserved_windowHours : s.selectObserved.windowHours = s.windowHours := rfl
@[simp] theorem State.selectObserved_notices : s.selectObserved.notices = s.notices := rfl
@[simp] theorem State.selectObserved_alloc :
    s.selectObserved.alloc = { s.alloc with selected := s.alloc.observed, settleTimer := none } := rfl

@[simp] theorem evaluateAll_pending : (evaluateAll s).pending = s.pending := by simp [evaluateAll]
@[simp] theorem evaluateAll_resetAsserted : (evaluateAll s).resetAsserted = s.resetAsserted := by simp [evaluateAll]
@[simp] theorem evaluateAll_pins : (evaluateAll s).pins = s.pins := by simp [evaluateAll]
@[simp] theorem evaluateAll_ds : (evaluateAll s).ds = s.ds := by simp [evaluateAll]
@[simp] theorem evaluateAll_port : (evaluateAll s).port = s.port := by simp [evaluateAll]
@[simp] theorem evaluateAll_overrun : (evaluateAll s).overrun = s.overrun := by simp [evaluateAll]
@[simp] theorem evaluateAll_transaction : (evaluateAll s).transaction = s.transaction := by simp [evaluateAll]
@[simp] theorem evaluateAll_shiftedOut : (evaluateAll s).shiftedOut = s.shiftedOut := by simp [evaluateAll]
@[simp] theorem evaluateAll_freeCount : (evaluateAll s).freeCount = s.freeCount := by simp [evaluateAll]
@[simp] theorem evaluateAll_tanks : (evaluateAll s).tanks = s.tanks := by simp [evaluateAll]
@[simp] theorem evaluateAll_orders : (evaluateAll s).orders = s.orders := by simp [evaluateAll]
@[simp] theorem evaluateAll_gauges : (evaluateAll s).gauges = s.gauges := by simp [evaluateAll]
@[simp] theorem evaluateAll_alloc : (evaluateAll s).alloc = s.alloc := by simp [evaluateAll]
@[simp] theorem evaluateAll_guard : (evaluateAll s).guard = s.guard := by simp [evaluateAll]
@[simp] theorem evaluateAll_windowHours : (evaluateAll s).windowHours = s.windowHours := by simp [evaluateAll]
@[simp] theorem evaluateAll_catchments :
    (evaluateAll s).catchments = Vector.ofFn fun k => (s.evaluated k).map CatchmentStep.catchment := by
  simp [evaluateAll]

end

/-- The events that compute: a start, an extra run, and the promotion of a run with its computation (R105, R107, R108). -/
inductive Computes : State → State → Prop
  | start {s : State} (released : s.resetAsserted = false) :
      Computes s (computation { s with alloc := { s.alloc with running := true } }).startPeriod
  | compute {s : State} (running : s.alloc.running = true) : Computes s (computation s)
  | promote {s : State} (running : s.alloc.running = true) : Computes s (computation (promotion s))

/-- One event of the part: the conditions under which it happens, and the state it leaves. -/
inductive Event : State → State → Prop
  -- The port, the queue and the free values.
  | talked (s : State) (pending : List Instr) (port : Port) (overrun : Bool) (transaction : Transaction) (out : List Byte)
      (n : Nat) : Event s { s with
        pending := pending, port := port, overrun := overrun, transaction := transaction, shiftedOut := out, freeCount := n }
  -- Reset and the lines.
  | reset (s : State) : Event s (resetState s)
  | release {s : State} (reset : s.resetAsserted = true) : Event s (takeLines s)
  | lineInReset {s : State} (reset : s.resetAsserted = true) (pins : Pins) : Event s { s with pins := pins }
  | zinh (s : State) (z : Fin 4) (level : Bool) :
      Event s (zinhEvent z { s with pins := { s.pins with zinh := s.pins.zinh.set z level } })
  | capSel {s : State} (released : s.resetAsserted = false) (line : Fin 3) (level : Bool) :
      Event s (capSelEvent { s with pins := { s.pins with capSel := s.pins.capSel.set line level } })
  | intake (s : State) (level : Bool) :
      Event s { s with pins := { s.pins with intakeHigh := level }, guard := { s.guard with lineHigh := level } }
  -- Settings, notices and flags.
  | setting (s : State) (n value : Nat) : Event s (s.writeSetting n (settingUsed n value))
  | mask (s : State) (t : BitVec 8) (c : BitVec 3) (a : BitVec 7) :
      Event s { s with notices := { s.notices with tankMask := t, catchmentMask := c, allocationMask := a } }
  | collect (s : State) : Event s { s with notices := s.notices.collected }
  | clearNotices (s : State) : Event s { s with notices := s.notices.cleared }
  | dropTankNotices (s : State) (i : Fin 32) : Event s (s.discardTankNotices i)
  | postTank (s : State) (i : Fin 32) (posts : List TankPost) : Event s (s.postTank i posts)
  | postAllocation (s : State) (p : AllocationPost) : Event s (s.postAllocation p)
  | readOrders (s : State) : Event s { s with orders := s.orders.map fun e => { e with activeChanged := false } }
  -- The Tank Table.
  | createTank {s : State} (released : s.resetAsserted = false) {i : Fin 32} {c : Fin 8} {z : Fin 4} {f : TankFields}
      (ok : tankFieldsOk f = true) (named : s.catchments[c].isSome) (undefined : s.tanks[i] = none) :
      Event s ((s.setTank i (some ((Tank.fresh (tankDefOf c z f)).formInhibit s.pins.zinh))).clearEntry i)
  | redefineTank {s : State} (released : s.resetAsserted = false) {i : Fin 32} {c : Fin 8} {z : Fin 4} {f : TankFields} {t : Tank}
      (ok : tankFieldsOk f = true) (named : s.catchments[c].isSome) (defined : s.tanks[i] = some t) (offline : t.service = none) :
      Event s (s.setTank i (some ((t.redefine (tankDefOf c z f)).formInhibit s.pins.zinh)))
  | loadTables {s : State} {i : Fin 32} {t : Tank} (defined : s.tanks[i] = some t) (offline : t.service = none)
      (stage : Option StageTable) (rating : Option (List Point)) :
      Event s (s.setTank i (some { t with stage := stage, rating := rating }))
  | place {s : State} {i : Fin 32} {t : Tank} (defined : s.tanks[i] = some t) (offline : t.service = none) :
      Event s (s.setTank i (some { t with service := some Service.fresh }))
  | takeOffline {s : State} {i : Fin 32} {t : Tank} {v : Service} (present : s.serviceAt i = some (t, v)) :
      Event s (((s.withdraw fun j => j == i).clearMark i).setTank i (some (t.leaveService v).tank))
  | retireTank {s : State} {i : Fin 32} {t : Tank} (defined : s.tanks[i] = some t) (offline : t.service = none) :
      Event s ((s.zeroOrders fun j => j == i).setTank i none)
  | setMode {s : State} {i : Fin 32} {t : Tank} (defined : s.tanks[i] = some t) (mode : Mode) (value : Nat) :
      Event s (s.setTank i (some { t with pendingMode := pendingFor mode value t.defn.rMax }))
  | setInhibit {s : State} {i : Fin 32} {t : Tank} (defined : s.tanks[i] = some t) (flag : Bool) :
      Event s ((s.setTank i (some { t with softInhibit := flag })).formInhibits fun j => j == i)
  -- Reports, silence and faults.
  | report {s : State} {i : Fin 32} {t : Tank} {v : Service} (present : s.serviceAt i = some (t, v)) (level report : Nat) :
      Event s (s.setTank i (some (t.report s i level report v).tank))
  | stale {s : State} {i : Fin 32} {t : Tank} {v : Service} (present : s.serviceAt i = some (t, v)) :
      Event s (s.setTank i (some { t with service := some { v with level := v.level.expire t.defn s.ds } }))
  | lost {s : State} {i : Fin 32} {t : Tank} {v : Service} (present : s.serviceAt i = some (t, v)) :
      Event s (((s.setTank i (some (s.lostTank i t v))).postTank i
        ([.stale, .levelLost] ++ (closeAtLastReport .lost v t.book).posts)).withdraw fun j => j == i)
  | clearFault {s : State} {i : Fin 32} {t : Tank} {v : Service} (present : s.serviceAt i = some (t, v)) :
      Event s (s.setTank i (some { t with service := some (v.clearFaults t.defn s.orders[i].active) }))
  | stalls (s : State) : Event s (stallStage s)
  -- Spills.
  | resetCounts {s : State} {i : Fin 32} {t : Tank} (defined : s.tanks[i] = some t) :
      Event s (s.setTank i (some (t.resetCounts s.now s.windowHours).tank))
  | resetAllCounts (s : State) : Event s (s.mapTanks fun _ t => (t.resetCounts s.now s.windowHours).tank)
  | flagSpills (s : State) : Event s s.flagSpills
  -- The Allocator.
  | storeBank {s : State} {i : Fin 8} (other : i ≠ s.alloc.selected) (b : Nat) : Event s (s.storeBank i b)
  | storeSelectedBank (s : State) (b : Nat) : Event s (setBudget b (s.storeBank s.alloc.selected b))
  | settle (s : State) : Event s (setBudget s.alloc.banks[s.alloc.observed] s.selectObserved)
  | stop (s : State) : Event s (stopAllocator (s.zeroOrders fun _ => true))
  | computes {s t : State} (now : Computes s t) : Event s t
  | restartPeriod {s : State} (running : s.alloc.running = true) : Event s s.startPeriod
  -- The Intake Guard.
  | trip {s t : State} (move : TripMove s t) : Event s t
  | extend {s : State} (tripped : s.guard.isTripped = true) (n : Nat) : Event s { s with guard := { s.guard with
      trip := .tripped (s.ds + 10 * s.guard.offTime), extensionCount := n } }
  | startHold {s : State} (free : s.guard.hold = .noHold) {length : Nat} (short : length ≤ s.guard.longestHold) :
      Event s (s.setHold (.held s.now (s.now + s.guard.longestHold) (s.now + length) (s.ds + 10 * length)))
  | zeroAutoNext (s : State) : Event s s.zeroAutoNext
  | moveHold {s : State} {start limit stop timer : Nat} (held : s.guard.hold = .held start limit stop timer) {moved : Nat}
      (later : stop ≤ limit → stop ≤ moved) (within : moved ≤ limit) :
      Event s (s.setHold (.held start limit moved (s.ds + 10 * (moved - s.now))))
  | override (s : State) (start limit : Nat) : Event s (s.setHold (.overridden start limit))
  | endHold (s : State) : Event s (s.setHold .noHold)
  -- Gauges.
  | defineGauge {s : State} {k : Fin 12} {depth debounce dryGap : Nat} (ok : gaugeValuesOk depth debounce dryGap = true)
      (undefined : s.gauges[k] = none) : Event s (s.setGauge k (some (Gauge.fresh depth debounce dryGap)))
  | redefineGauge {s : State} {k : Fin 12} {g : Gauge} {depth debounce dryGap : Nat} (ok : gaugeValuesOk depth debounce dryGap = true)
      (defined : s.gauges[k] = some g) :
      Event s (s.setGauge k (some { g with depthPerTip := depth, debounce := debounce, dryGap := dryGap }))
  | retireGauge {s : State} {k : Fin 12} (unlisted : s.gaugeListed k = false) : Event s (s.setGauge k none)
  | tip {s : State} {k : Fin 12} {g : Gauge} (defined : s.gauges[k] = some g) : Event s (s.setGauge k (some (g.tip s.ds)))
  | endStorm {s : State} {k : Fin 12} {g : Gauge} (defined : s.gauges[k] = some g) : Event s (s.setGauge k (some g.endStorm))
  -- Catchments.
  | defineCatchment {s : State} {k : Fin 8} {d : CatchmentDef} (listed : ∀ g ∈ d.gauges, s.gauges[g].isSome)
      (undefined : s.catchments[k] = none) : Event s (s.setCatchment k (some (Catchment.fresh d)))
  | redefineCatchment {s : State} {k : Fin 8} {c : Catchment} {d : CatchmentDef} (listed : ∀ g ∈ d.gauges, s.gauges[g].isSome)
      (defined : s.catchments[k] = some c) : Event s (s.setCatchment k (some { c with defn := d }))
  | retireCatchment {s : State} {k : Fin 8} (unnamed : s.tanksNaming k = 0) :
      Event s (((s.setCatchment k none).discardCatchmentNotices k).formRainAlert)
  | evaluate {s : State} (due : s.alerts.evalTimer.isSome) : Event s (evaluateAll s)
  | forecast {s : State} {k : Fin 8} {c : Catchment} (defined : s.catchments[k] = some c) {level : AlertLevel} {duration : Nat}
      (positive : level ≠ .noAlert → 0 < duration) :
      Event s (s.reformCatchment k [] { c with floor := forecastFloor s level duration })
  | floorExpiry {s : State} {k : Fin 8} {c : Catchment} (defined : s.catchments[k] = some c) :
      Event s (s.reformCatchment k [.floorExpired] { c with floor := none })
  | acknowledge {s : State} {k : Fin 8} {c : Catchment} (defined : s.catchments[k] = some c) :
      Event s (s.setCatchment k (some { c with acknowledged := true }))
  -- CLEAR_STATE.
  | clearBlocks (s : State) : Event s (Machine.clearBlocks s)

/-- A chain of events. -/
abbrev Events : State → State → Prop := Relation.ReflTransGen Event

theorem Event.events {s t : State} (h : Event s t) : Events s t := .single h

/-! ### Chains that several commands share -/


theorem TripMove.events {s t : State} (h : TripMove s t) : Events s t := (Event.trip h).events

theorem TripMoves.events {s t : State} (h : TripMoves s t) : Events s t := by
  induction h with
  | refl => exact .refl
  | tail _ move ih => exact ih.tail (.trip move)

theorem enterArmed_events (s : State) : Events s (enterArmed s) := (enterArmed_moves s).events

theorem extraRun_events (s : State) : Events s (extraRun s) := by
  rw [extraRun]
  split
  · next running => exact (Event.computes (.compute running)).events
  · exact .refl

/-! ### The events of the requests -/

section
variable (s : State)

theorem answerSetLimits_events (count : Nat) (body : List Byte) : Events s (answerSetLimits count body s).state := by
  have writes (entries : List Point) (s : State) :
      Events s (entries.foldl (fun s e => s.writeSetting e.x (settingUsed e.x e.y)) s) := by
    induction entries generalizing s with
    | nil => exact .refl
    | cons e rest ih => exact (Event.setting s e.x e.y).events.trans (ih _)
  simp only [answerSetLimits]
  split_ifs
  · exact .refl
  · exact .refl
  · exact writes _ s
  · exact .refl

theorem answerSetBank_events (bank budget : Nat) : Events s (answerSetBank bank budget s).state := by
  rw [answerSetBank]
  split
  · exact .refl
  next i _ =>
    simp only [accept]
    split
    · next h => subst h; exact (Event.storeSelectedBank s budget).events
    · next h => exact (Event.storeBank h budget).events

theorem answerDefineTank_events (released : s.resetAsserted = false) (tank : Nat) (f : TankFields) :
    Events s (answerDefineTank tank f s).state := by
  rw [answerDefineTank]
  split
  · next i c z _ _ _ =>
    split
    · exact .refl
    next offline =>
    split
    · next ok =>
      split
      · next named =>
        simp only [accept, State.definedTank]
        cases ht : s.tanks[i] with
        | none => exact (Event.createTank released ok named ht).events
        | some t =>
          rw [ht, isInService] at offline
          exact (Event.redefineTank released ok named ht (by simpa using offline)).events
      · exact .refl
    · exact .refl
  · exact .refl

theorem answerLoadStageTable_events (tank count : Nat) (body : List Byte) :
    Events s (answerLoadStageTable tank count body s).state := by
  rw [answerLoadStageTable]
  split
  · exact .refl
  split
  · exact .refl
  next t defined =>
  split
  · exact .refl
  next offline =>
  split
  · exact .refl
  split
  · exact (Event.loadTables defined (by simpa using offline) _ t.rating).events
  · exact .refl

theorem answerLoadRatingTable_events (tank count : Nat) (body : List Byte) :
    Events s (answerLoadRatingTable tank count body s).state := by
  rw [answerLoadRatingTable]
  split
  · exact .refl
  split
  · exact .refl
  next t defined =>
  split
  · exact .refl
  next offline =>
  split
  · exact .refl
  split
  · exact (Event.loadTables defined (by simpa using offline) t.stage _).events
  · exact .refl

theorem answerPlaceInService_events (tank : Nat) : Events s (answerPlaceInService tank s).state := by
  rw [answerPlaceInService]
  split
  · exact .refl
  split
  · exact .refl
  next t defined =>
  split
  · exact .refl
  next offline =>
  split
  · exact (Event.place defined (by simpa using offline)).events
  · exact .refl

theorem answerTakeOffline_events (tank : Nat) : Events s (answerTakeOffline tank s).state := by
  rw [answerTakeOffline]
  split
  · exact .refl
  split
  · exact .refl
  next t defined =>
  split
  · exact .refl
  next v present =>
  exact (Event.takeOffline (State.serviceAt_of defined present)).events.tail (Event.postTank _ _ _)

theorem answerRetireTank_events (tank : Nat) : Events s (answerRetireTank tank s).state := by
  rw [answerRetireTank]
  split
  · exact .refl
  split
  · exact .refl
  next t defined =>
  split
  · exact .refl
  next offline =>
  exact (Event.retireTank defined (by simpa using offline)).events.tail (Event.dropTankNotices _ _)

theorem answerDefineGauge_events (gauge depth debounce dryGap : Nat) :
    Events s (answerDefineGauge gauge depth debounce dryGap s).state := by
  rw [answerDefineGauge]
  split
  · exact .refl
  split
  · next ok =>
    split
    · next undefined => exact (Event.defineGauge ok undefined).events
    · next defined => exact (Event.redefineGauge ok defined).events
  · exact .refl

theorem answerRetireGauge_events (gauge : Nat) : Events s (answerRetireGauge gauge s).state := by
  rw [answerRetireGauge]
  split
  · exact .refl
  split
  · exact .refl
  split
  · exact .refl
  · next unlisted => exact (Event.retireGauge (by simpa using unlisted)).events

theorem answerDefineCatchment_events (catchment count : Nat) (body : List Byte) :
    Events s (answerDefineCatchment catchment count body s).state := by
  rw [answerDefineCatchment]
  split
  · exact .refl
  split
  · exact .refl
  split
  · exact .refl
  next f _ =>
  split
  · exact .refl
  next gauges _ =>
  split
  · split
    · next listed =>
      have listed : ∀ g ∈ (f.defn gauges).gauges, s.gauges[g].isSome := by simpa [CatchmentFields.defn] using listed
      split
      · next undefined => exact (Event.defineCatchment listed undefined).events
      · next defined => exact (Event.redefineCatchment listed defined).events
    · exact .refl
  · exact .refl

theorem answerRetireCatchment_events (catchment : Nat) : Events s (answerRetireCatchment catchment s).state := by
  rw [answerRetireCatchment]
  split
  · exact .refl
  split
  · exact .refl
  split
  · next unnamed => exact (Event.retireCatchment unnamed).events
  · exact .refl

theorem answerReportLevel_events (tank level age : Nat) : Events s (answerReportLevel tank level age s).state := by
  rw [answerReportLevel]
  split
  · exact .refl
  split
  · exact .refl
  next present =>
  split
  · exact .refl
  · exact (Event.report present level _).events.tail (Event.postTank _ _ _)

theorem answerSetMode_events (tank mode value : Nat) : Events s (answerSetMode tank mode value s).state := by
  rw [answerSetMode]
  split
  · exact .refl
  split
  · exact .refl
  split
  · exact .refl
  · next defined => exact (Event.setMode defined _ value).events

theorem answerSetInhibit_events (tank flag : Nat) : Events s (answerSetInhibit tank flag s).state := by
  rw [answerSetInhibit]
  split
  · exact .refl
  split
  · exact .refl
  split
  · exact .refl
  · next defined => exact (Event.setInhibit defined _).events

theorem answerStartAllocation_events (released : s.resetAsserted = false) : Events s (answerStartAllocation s).state := by
  rw [answerStartAllocation]
  split
  · exact .refl
  · have started := (Event.computes (.start released)).events
    rw [State.startPeriod, computation_eq] at started
    simp only [accept]
    rw [computation_eq]
    exact started

theorem answerStopAllocation_events : Events s (answerStopAllocation s).state := by
  rw [answerStopAllocation]
  split
  · exact (Event.stop s).events
  · exact .refl

theorem answerHold_events (duration : Nat) : Events s (answerHold duration s).state := by
  rw [answerHold]
  split
  · exact .refl
  split
  · next free =>
    exact ((Event.startHold free (Nat.min_le_right _ _)).events.tail (Event.zeroAutoNext _)).tail (Event.flagSpills _)
  · next held =>
    dsimp only
    split
    · exact .refl
    · exact (Event.moveHold held (fun h => le_min (le_max_left _ _) h) (Nat.min_le_right _ _)).events
  · exact .refl

theorem answerRelease_events : Events s (answerRelease s).state := by
  rw [answerRelease]
  split
  · exact .refl
  · exact (Event.endHold s).events.trans (extraRun_events _)
  · exact (Event.endHold s).events.trans (extraRun_events _)

theorem leaveTripped_events : Events s (leaveTripped s) := by
  rw [leaveTripped]
  split
  · exact (Event.postAllocation s .tripCleared).events.trans (enterArmed_events _)
  · next lasts => exact (Event.postAllocation s .tripCleared).events.trans (TripMove.blanked (by simpa using lasts)).events

theorem answerResume_events : Events s (answerResume s).state := by
  rw [answerResume]
  split
  · exact (leaveTripped_events s).trans (extraRun_events _)
  · exact .refl

theorem answerClearFault_events (tank : Nat) : Events s (answerClearFault tank s).state := by
  rw [answerClearFault]
  split
  · exact .refl
  split
  · exact .refl
  next defined =>
  split
  · exact .refl
  next present =>
  split
  · exact (Event.clearFault (State.serviceAt_of defined present)).events
  · exact .refl

theorem answerAckAlert_events (catchment : Nat) : Events s (answerAckAlert catchment s).state := by
  rw [answerAckAlert]
  split
  · exact .refl
  split
  · exact .refl
  next defined =>
  split
  · exact .refl
  · exact (Event.acknowledge defined).events

theorem answerSetForecast_events (catchment level duration : Nat) :
    Events s (answerSetForecast catchment level duration s).state := by
  rw [answerSetForecast]
  split
  · exact .refl
  split
  · exact .refl
  split
  · exact .refl
  next positive =>
  split
  · exact .refl
  · next defined =>
    exact (Event.forecast defined fun lasting => Nat.pos_of_ne_zero fun zero => positive ⟨lasting, zero⟩).events

theorem answerResetCounts_events (tank : Nat) : Events s (answerResetCounts tank s).state := by
  rw [answerResetCounts]
  split
  · exact .refl
  split
  · exact .refl
  · next defined => exact (Event.resetCounts defined).events

theorem answerClearState_events : Events s (answerClearState s).state :=
  (((Event.clearBlocks s).events.tail (Event.endHold _)).trans (enterArmed_events _)).tail (Event.clearNotices _)

/-- The requests that only read leave the state as it is. -/
theorem answerReadTank_state (tank : Nat) : (answerReadTank tank s).state = s := by
  rw [answerReadTank]
  split
  · rfl
  · split <;> rfl

theorem answerReadSpill_state (tank : Nat) : (answerReadSpill tank s).state = s := by
  rw [answerReadSpill]
  split
  · rfl
  · split <;> rfl

theorem answerReadGauge_state (gauge : Nat) : (answerReadGauge gauge s).state = s := by
  rw [answerReadGauge]
  split
  · rfl
  · split <;> rfl

theorem answerReadCatchment_state (catchment : Nat) : (answerReadCatchment catchment s).state = s := by
  rw [answerReadCatchment]
  split
  · rfl
  · split <;> rfl

end

/-! ### The events of the expiries -/

theorem staleEvent_events (i : Fin 32) (s : State) : Events s (staleEvent i s) := by
  rw [staleEvent]
  split
  · exact .refl
  next present =>
  split
  · dsimp only
    split
    · exact (Event.lost present).events
    · exact (Event.stale present).events.tail (Event.postTank _ _ _)
  · exact .refl

theorem dryGapEvent_events (k : Fin 12) (s : State) : Events s (dryGapEvent k s) := by
  rw [dryGapEvent]
  split
  · exact .refl
  next defined =>
  split
  · exact (Event.endStorm defined).events
  · exact .refl

theorem evaluationEvent_of_due {s : State} (h : due s.alerts.evalTimer s.ds = true) : evaluationEvent s = evaluateAll s := by
  rw [evaluationEvent, if_pos h]
  rfl

theorem isSome_of_due {timer : Timer} {ds : Nat} (h : due timer ds = true) : timer.isSome := by
  obtain ⟨n, hn, -⟩ := (due_iff timer ds).1 h
  simp [hn]

theorem evaluationEvent_events (s : State) : Events s (evaluationEvent s) := by
  by_cases h : due s.alerts.evalTimer s.ds = true
  · rw [evaluationEvent_of_due h]
    exact (Event.evaluate (isSome_of_due h)).events
  · rw [evaluationEvent, if_neg h]

theorem floorEvent_events (k : Fin 8) (s : State) : Events s (floorEvent k s) := by
  rw [floorEvent]
  split
  · exact .refl
  next defined =>
  split
  · exact (Event.floorExpiry defined).events
  · exact .refl

theorem settleEvent_events (s : State) : Events s (settleEvent s) := by
  rw [settleEvent]
  split
  · exact (Event.settle s).events.tail (Event.postAllocation _ .bankChanged)
  · exact .refl

theorem filterEvent_events (s : State) : Events s (filterEvent s) := by
  rw [filterEvent]
  split
  · split
    · exact (TripMove.tripped s).events
    · exact .refl
  · exact .refl
  · exact .refl

theorem blankEvent_events (s : State) : Events s (blankEvent s) := by
  rw [blankEvent]
  split
  · split
    · exact enterArmed_events s
    · exact .refl
  · exact .refl
  · exact .refl

theorem offEvent_events (s : State) : Events s (offEvent s) := by
  rw [offEvent]
  split
  · next expiry tripped =>
    split
    · split
      · exact (Event.extend (by rw [Guard.isTripped, tripped]) _).events
      · exact ((TripMove.armed s).events.tail (Event.postAllocation _ _)).trans (extraRun_events _)
    · exact .refl
  · exact .refl
  · exact .refl

theorem holdEndEvent_events (s : State) : Events s (holdEndEvent s) := by
  rw [holdEndEvent]
  split
  · next start limit _ _ _ =>
    split
    · split
      · exact (((Event.override s start limit).events.tail (Event.flagSpills _)).tail (Event.postAllocation _ _)).trans
          (extraRun_events _)
      · exact ((Event.endHold s).events.tail (Event.postAllocation _ _)).trans (extraRun_events _)
    · exact .refl
  · exact .refl
  · exact .refl

/-- The run of a RUNNING Allocator whose period is over: its three stages, and the period timer restarted with P (R107). -/
theorem runEvent_of_due {s : State} (h : (s.alloc.running && due s.alloc.periodTimer s.ds) = true) :
    runEvent s = (computation (promotion (stallStage s))).startPeriod := by
  have same : (computation (promotion (stallStage s))).ds = s.ds := by simp
  simp only [runEvent, h, if_true, State.startPeriod, same]

theorem runEvent_events (s : State) : Events s (runEvent s) := by
  by_cases h : (s.alloc.running && due s.alloc.periodTimer s.ds) = true
  · have running : s.alloc.running = true := ((Bool.and_eq_true _ _).mp h).1
    have started : (stallStage s).alloc.running = true := by simpa [stallStage] using running
    have restarted : (computation (promotion (stallStage s))).alloc.running = true := by simpa using started
    rw [runEvent_of_due h]
    exact ((Event.stalls s).events.tail (Event.computes (.promote started))).tail (Event.restartPeriod restarted)
  · rw [runEvent, if_neg h]

/-- Every expiry is a chain of events. -/
theorem expiryEvent_events (e : Expiry) (s : State) : Events s (expiryEvent e s) := by
  cases e with
  | stale i => exact staleEvent_events i s
  | dryGap k => exact dryGapEvent_events k s
  | evaluation => exact evaluationEvent_events s
  | floor k => exact floorEvent_events k s
  | settle => exact settleEvent_events s
  | period => exact runEvent_events s
  | filter => exact filterEvent_events s
  | blank => exact blankEvent_events s
  | off => exact offEvent_events s
  | holdEnd => exact holdEndEvent_events s

/-- Expiries taken one after another are a chain of events. -/
theorem expiries_events (order : List Expiry) (s : State) : Events s (order.foldl (fun t e => expiryEvent e t) s) := by
  induction order generalizing s with
  | nil => exact .refl
  | cons e rest ih => exact (expiryEvent_events e s).trans (ih _)

/-! ### The commands -/

/-- An event of the released part. -/
theorem whileReleased_events {event : State → State} {s : State} (h : s.resetAsserted = false → Events s (event s)) :
    Events s (whileReleased event s) := by
  cases hr : s.resetAsserted with
  | false => rw [whileReleased_released hr]; exact h hr
  | true => rw [whileReleased_asserted hr]

/-- A request is its owner's chain, and then the reply. -/
theorem serve_events {c : Instr} {owner : State → Answer} {s : State}
    (h : s.resetAsserted = false → Events s (owner s).state) : Events s (serve c owner s) := by
  by_cases taken : ∃ tag, s.takes tag c
  · obtain ⟨tag, htag⟩ := taken
    rw [serve_taken htag]
    exact (h htag.1).tail (Event.talked _ _ (.reply _) _ _ _ _)
  · rw [serve_not_taken (by simpa using taken)]

/-- A request that leaves the state to the reply. -/
theorem serve_events_of_state {c : Instr} {owner : State → Answer} {s : State} (h : (owner s).state = s) :
    Events s (serve c owner s) :=
  serve_events fun _ => by rw [h]

theorem intakeEvent_events (level : Bool) (s : State) :
    Events s (intakeEvent level { s with pins := { s.pins with intakeHigh := level } }) := by
  have seen := (Event.intake s level).events
  rw [intakeEvent]
  split
  · split
    · exact seen.trans (startFilter_moves _).events
    · exact seen.trans (TripMove.armed _).events
  · exact seen
  · exact seen

theorem tipEvent_events (k : Fin 12) (s : State) : Events s (tipEvent k s) := by
  rw [tipEvent]
  split
  · exact .refl
  next defined =>
  split
  · exact (Event.tip defined).events
  · exact .refl

/-- A line command: the level changes the pin alone in reset, and is an event of the part else (log 8). -/
theorem line_events {event : State → State} {s : State} (pins : Pins)
    (h : s.resetAsserted = false → Events s (event { s with pins := pins })) :
    Events s (whileReleased event { s with pins := pins }) := by
  by_cases hr : s.resetAsserted = true
  · rw [whileReleased_asserted (s := { s with pins := pins }) hr]
    exact (Event.lineInReset hr pins).events
  · rw [Bool.not_eq_true] at hr
    rw [whileReleased_released (s := { s with pins := pins }) hr]
    exact h hr

theorem shown_events (b : Beginning) (out : List Byte) (s : State) : Events s (s.shown b out) :=
  (Event.talked s _ _ _ _ _ _).events

theorem transactionEvent_events (b : Beginning) (content : List Byte) (s : State) : Events s (transactionEvent b content s) := by
  rw [transactionEvent.eq_def]
  split
  · exact .refl
  · exact shown_events b [] s
  · split
    · exact (Event.talked s _ _ _ _ _ _).events
    · rw [frameEvent]
      split <;> exact (Event.talked s _ _ _ _ _ _).events

theorem endTransaction_events (content : List Byte) (s : State) : Events s (endTransaction content s) := by
  have ended := (Event.talked s s.pending s.port s.overrun .absent s.shiftedOut s.freeCount).events
  rw [endTransaction]
  split
  · split
    · exact ended
    · exact ended.trans (transactionEvent_events _ content _)
  · exact ended

theorem transactionMoment_events {α : Type} (content : α → List Byte) (moment : Moment α) (s : State) :
    Events s (transactionMoment content moment s) := by
  cases moment with
  | ends c => exact endTransaction_events (content c) s
  | begins =>
    rw [transactionMoment, beginTransaction]
    split
    · exact (Event.talked s _ _ _ _ _ _).events
    · exact .refl
    · exact .refl

theorem refusedFrameEvent_events (s : State) : Events s (refusedFrameEvent s) := by
  rw [refusedFrameEvent]
  split
  · exact (Event.talked s _ _ _ _ _ _).events
  · exact .refl
  · exact .refl
  · exact .refl

/-- The next state of a command as a chain of events, for a command whose meaning is one. -/
theorem next_events {s t u : State} (h : Events s u) (e : Host.Outcome.next (φ := Fault) (ρ := Refusal) u = .next t) :
    Events s t := by
  cases e
  exact h

/-- Every command is a chain of events, but the tick of the released part, which advances the count besides. -/
theorem exec_events {c : Instr} {s t : State} (h : exec c s = .next t) :
    Events s t ∨ s.resetAsserted = false ∧ t = tickEvent s := by
  cases c with
  | decisecondTick =>
    cases hr : s.resetAsserted with
    | false => exact .inr ⟨rfl, by cases h; exact whileReleased_released hr⟩
    | true => exact .inl (next_events (by rw [whileReleased_asserted hr]) h)
  | powerOn => exact .inl (next_events (Event.reset s).events h)
  | resetNAsserted => exact .inl (next_events (Event.reset s).events h)
  | resetNReleased =>
    refine .inl (next_events ?_ h)
    split
    · next reset => exact (Event.release reset).events.trans (enterArmed_events _)
    · exact .refl
  | statusPoll => exact .inl (next_events (endTransaction_events _ s) h)
  | fetch moment => exact .inl (next_events (transactionMoment_events _ moment s) h)
  | requestFrame moment => exact .inl (next_events (transactionMoment_events _ moment s) h)
  | setLimits n entries => exact .inl (next_events (serve_events fun _ => answerSetLimits_events s n entries) h)
  | setBank bank budget => exact .inl (next_events (serve_events fun _ => answerSetBank_events s bank budget) h)
  | setNoticeMask t c a => exact .inl (next_events (serve_events fun _ => (Event.mask s _ _ _).events) h)
  | defineTank tank f => exact .inl (next_events (serve_events fun hr => answerDefineTank_events s hr tank f) h)
  | loadStageTable tank n points =>
    exact .inl (next_events (serve_events fun _ => answerLoadStageTable_events s tank n points) h)
  | loadRatingTable tank n points =>
    exact .inl (next_events (serve_events fun _ => answerLoadRatingTable_events s tank n points) h)
  | placeInService tank => exact .inl (next_events (serve_events fun _ => answerPlaceInService_events s tank) h)
  | takeOffline tank => exact .inl (next_events (serve_events fun _ => answerTakeOffline_events s tank) h)
  | retireTank tank => exact .inl (next_events (serve_events fun _ => answerRetireTank_events s tank) h)
  | defineGauge g d b gap => exact .inl (next_events (serve_events fun _ => answerDefineGauge_events s g d b gap) h)
  | retireGauge g => exact .inl (next_events (serve_events fun _ => answerRetireGauge_events s g) h)
  | defineCatchment c n body => exact .inl (next_events (serve_events fun _ => answerDefineCatchment_events s c n body) h)
  | retireCatchment c => exact .inl (next_events (serve_events fun _ => answerRetireCatchment_events s c) h)
  | reportLevel tank level age =>
    exact .inl (next_events (serve_events fun _ => answerReportLevel_events s tank level age) h)
  | setMode tank mode value => exact .inl (next_events (serve_events fun _ => answerSetMode_events s tank mode value) h)
  | setInhibit tank flag => exact .inl (next_events (serve_events fun _ => answerSetInhibit_events s tank flag) h)
  | startAllocation => exact .inl (next_events (serve_events (answerStartAllocation_events s)) h)
  | stopAllocation => exact .inl (next_events (serve_events fun _ => answerStopAllocation_events s) h)
  | hold duration => exact .inl (next_events (serve_events fun _ => answerHold_events s duration) h)
  | release => exact .inl (next_events (serve_events fun _ => answerRelease_events s) h)
  | resume => exact .inl (next_events (serve_events fun _ => answerResume_events s) h)
  | clearFault tank => exact .inl (next_events (serve_events fun _ => answerClearFault_events s tank) h)
  | ackAlert c => exact .inl (next_events (serve_events fun _ => answerAckAlert_events s c) h)
  | setForecast c level duration =>
    exact .inl (next_events (serve_events fun _ => answerSetForecast_events s c level duration) h)
  | resetCounts tank => exact .inl (next_events (serve_events fun _ => answerResetCounts_events s tank) h)
  | resetCountsAll => exact .inl (next_events (serve_events fun _ => (Event.resetAllCounts s).events) h)
  | clearState => exact .inl (next_events (serve_events fun _ => answerClearState_events s) h)
  | readTank tank => exact .inl (next_events (serve_events_of_state (answerReadTank_state s tank)) h)
  | readOrders => exact .inl (next_events (serve_events fun _ => (Event.readOrders s).events) h)
  | readSpill tank => exact .inl (next_events (serve_events_of_state (answerReadSpill_state s tank)) h)
  | readGauge g => exact .inl (next_events (serve_events_of_state (answerReadGauge_state s g)) h)
  | readCatchment c => exact .inl (next_events (serve_events_of_state (answerReadCatchment_state s c)) h)
  | readAllocation => exact .inl (next_events (serve_events_of_state (owner := answerReadAllocation) rfl) h)
  | readNotices => exact .inl (next_events (serve_events fun _ => (Event.collect s).events) h)
  | readTime => exact .inl (next_events (serve_events_of_state (owner := answerReadTime) rfl) h)
  | identify => exact .inl (next_events (serve_events_of_state (owner := answerIdentify) rfl) h)
  | tipEdge k => exact .inl (next_events (whileReleased_events fun _ => tipEvent_events k s) h)
  | zinhChange z level =>
    refine .inl (next_events ?_ h)
    split
    · exact .refl
    · exact line_events _ fun _ => (Event.zinh s z level).events
  | capSelChange line level =>
    refine .inl (next_events ?_ h)
    split
    · exact .refl
    · exact line_events _ fun hr => (Event.capSel hr line level).events
  | intakeHighChange level =>
    refine .inl (next_events ?_ h)
    split
    · exact .refl
    · exact line_events _ fun _ => intakeEvent_events level s
  | staleExpiry i => exact .inl (next_events (whileReleased_events fun _ => expiryEvent_events (.stale i) s) h)
  | dryGapExpiry k => exact .inl (next_events (whileReleased_events fun _ => expiryEvent_events (.dryGap k) s) h)
  | evaluationExpiry => exact .inl (next_events (whileReleased_events fun _ => expiryEvent_events .evaluation s) h)
  | floorExpiry k => exact .inl (next_events (whileReleased_events fun _ => expiryEvent_events (.floor k) s) h)
  | settleExpiry => exact .inl (next_events (whileReleased_events fun _ => expiryEvent_events .settle s) h)
  | allocationRun => exact .inl (next_events (whileReleased_events fun _ => expiryEvent_events .period s) h)
  | filterExpiry => exact .inl (next_events (whileReleased_events fun _ => expiryEvent_events .filter s) h)
  | blankExpiry => exact .inl (next_events (whileReleased_events fun _ => expiryEvent_events .blank s) h)
  | offTimerExpiry => exact .inl (next_events (whileReleased_events fun _ => expiryEvent_events .off s) h)
  | holdEndExpiry => exact .inl (next_events (whileReleased_events fun _ => expiryEvent_events .holdEnd s) h)
  | frameRefusedByPort => exact .inl (next_events (whileReleased_events fun _ => refusedFrameEvent_events s) h)

/-! ### Laws -/

/-- What a law must keep to be kept by every step. -/
structure Kept (P : State → Prop) : Prop where
  event : ∀ {s t : State}, Event s t → P s → P t
  count : ∀ (s : State) (n : Nat), P s → P { s with ds := n }

theorem Kept.events {P : State → Prop} (kept : Kept P) {s t : State} (h : Events s t) (hs : P s) : P t := by
  induction h with
  | refl => exact hs
  | tail _ e ih => exact kept.event e ih

theorem takeExpiries_events (s : State) : Events s (takeExpiries s) :=
  (expiries_events s.expiryOrder s).tail (Event.talked _ _ _ _ _ _ _)

/-- A step is a chain of events, or the tick. -/
theorem step_events {s t : State} (h : step s = .next t) :
    Events s t ∨ ∃ q, s.resetAsserted = false ∧ t = tickEvent { s with pending := q } := by
  rw [step] at h
  split at h
  · exact .inl (next_events .refl h)
  · next c rest _ =>
    rcases exec_events h with chain | tick
    · exact .inl (.head (Event.talked s rest s.port s.overrun s.transaction s.shiftedOut s.freeCount) chain)
    · exact .inr ⟨rest, tick⟩

/-- A law that every event keeps, and that does not look at the count, is kept by every step. -/
theorem Kept.step {P : State → Prop} (kept : Kept P) {s t : State} (h : step s = .next t) (hs : P s) : P t := by
  rcases step_events h with chain | ⟨q, -, rfl⟩
  · exact kept.events chain hs
  · have taken := (Relation.ReflTransGen.single (Event.talked s q s.port s.overrun s.transaction s.shiftedOut s.freeCount)).trans
      (takeExpiries_events _)
    exact kept.count _ _ (kept.events taken hs)

end Sys2Proof.Machine
end

section
/-! PROOFS. What an event does to one tank index. A slot is everything the laws of the tanks read at an index; every event takes each
slot through a chain of the changes listed in `SlotChange`, so a law of slots is proved change by change, once for all events. -/

namespace Sys2Proof.Machine

/-! ### Slots -/

/-- What the laws of the tanks read at one index: the record, the Order Buffer's entry, whether the run order list holds the tank, and
whether the trip state is TRIPPED. -/
structure Slot where
  tank : Option Tank
  order : OrderEntry
  listed : Bool
  tripped : Bool

/-- The slot of an index. -/
def State.slot (s : State) (i : Fin 32) : Slot :=
  { tank := s.tanks[i], order := s.orders[i], listed := s.alloc.runOrder.contains i, tripped := s.guard.isTripped }

/-- Both orders written, with the effects of R130. -/
def Slot.write (active next : Nat) (x : Slot) : Slot :=
  { x with
    tank := x.tank.map fun t => t.mapService (Service.activeChange t.defn x.order.active active)
    order := { x.order.withActive active with next := next } }

/-- Both orders 0, and the tank out of the run order list (R132). -/
def Slot.withdrawn (x : Slot) : Slot :=
  { x.write 0 0 with listed := false }

/-- Rmin at a slot. -/
def Slot.rMin (x : Slot) : Nat :=
  match x.tank with
  | some t => t.defn.rMin
  | none => 0

/-- A cut of an order: it stands, comes to 0, or falls and stays at least Rmin (R120). -/
def CutTo (rMin old new : Nat) : Prop :=
  new = old ∨ new = 0 ∨ new ≤ old ∧ rMin ≤ new

/-! ### The changes of a slot -/

/-- What a computation does to a slot (R109 to R116, R128). -/
inductive SlotCompute : Slot → Slot → Prop
  | idle {x : Slot} (idle : ∀ t, x.tank = some t → t.service = none) :
      SlotCompute x { x with order := { x.order with next := 0, mark := .noMark }, listed := false }
  | served {x : Slot} {t : Tank} {v : Service} (defined : x.tank = some t) (present : t.service = some v) {n : Nat} {listed : Bool}
      (written : n = 0 ∨ (x.tripped = true → t.inForce.mode ≠ .auto) ∧ v.op ≠ .faulted ∧ t.inhibited = false ∧
        (t.pendingMode.mode = .manual ∧ n = t.pendingMode.value ∨
          t.pendingMode.mode = .auto ∧ t.inForce.mode = .auto ∧ t.defn.rMin ≤ n ∧ n ≤ t.defn.rMax))
      (eligible : listed = true → t.inForce.mode = .auto ∧ v.op ≠ .faulted ∧ t.inhibited = false) :
      SlotCompute x { x with order := { x.order with next := n, mark := t.pendingMode.mode.mark }, listed := listed }

/-- The snapshot of an ordered tank taken (R50). -/
def Service.takeSnapshot (active : Nat) (v : Service) : Service :=
  if 0 < active then { v with supervisor := { v.supervisor with snapshot := v.level.lastLevel } } else v

/-- The active order that a promotion puts in force at a slot (R129). -/
def Slot.promoted (x : Slot) : Nat :=
  match x.tank with
  | some t => if t.service.isSome ∧ x.order.mark = t.pendingMode.mode.mark then x.order.next else 0
  | none => 0

/-- A slot after a promotion (R129, R130, R12, R50). -/
def Slot.promote (x : Slot) : Slot :=
  { x.write x.promoted x.order.next with
    tank := x.tank.map fun t =>
      { (t.mapService (Service.activeChange t.defn x.order.active x.promoted)).mapService (Service.takeSnapshot x.promoted) with
        inForce := t.pendingMode }
    listed := x.listed && !(x.tank.map fun t => t.pendingMode.mode == .manual).getD false }

/-- What a move of the trip machine does to a slot: the state is left, or it is entered and a tank in AUTO in force loses its orders,
while spills are flagged (R133, R155). -/
inductive SlotTrip : Slot → Slot → Prop
  | leave (x : Slot) : SlotTrip x { x with tripped := false }
  | enter (x : Slot) (auto : ∃ t, x.tank = some t ∧ t.service.isSome ∧ t.inForce.mode = .auto) :
      SlotTrip x { x.write 0 0 with
        tank := (x.write 0 0).tank.map fun t => t.mapService fun v => { v with spilling := v.spilling.restrict }
        tripped := true }
  | pass (x : Slot) (other : ∀ t, x.tank = some t → t.service.isSome → t.inForce.mode ≠ .auto) :
      SlotTrip x { x with
        tank := x.tank.map fun t => t.mapService fun v => { v with spilling := v.spilling.restrict }
        tripped := true }

/-- One change of a slot, where the ZINH lines have these levels after it and it happens in this state; a computation is one only where `computes` holds. -/
inductive SlotChange (lines : Vector Bool 4) (now : State) (computes : Prop) : Slot → Slot → Prop
  | reset (x : Slot) : SlotChange lines now computes x { tank := none, order := OrderEntry.zero, listed := false, tripped := false }
  | create {x : Slot} {c : Fin 8} {z : Fin 4} {f : TankFields} (ok : tankFieldsOk f = true)
      (named : now.catchments[c].isSome) (released : now.resetAsserted = false) (undefined : x.tank = none) :
      SlotChange lines now computes x { x with
        tank := some ((Tank.fresh (tankDefOf c z f)).formInhibit lines)
        order := { x.order with active := 0, next := 0, mark := .noMark } }
  | redefine {x : Slot} {t : Tank} {c : Fin 8} {z : Fin 4} {f : TankFields} (ok : tankFieldsOk f = true)
      (named : now.catchments[c].isSome) (defined : x.tank = some t) (offline : t.service = none) :
      SlotChange lines now computes x { x with tank := some ((t.redefine (tankDefOf c z f)).formInhibit lines) }
  | tables {x : Slot} {t : Tank} (defined : x.tank = some t) (offline : t.service = none) (stage : Option StageTable)
      (rating : Option (List Point)) : SlotChange lines now computes x { x with tank := some { t with stage := stage, rating := rating } }
  | place {x : Slot} {t : Tank} (defined : x.tank = some t) (offline : t.service = none) :
      SlotChange lines now computes x { x with tank := some { t with service := some Service.fresh } }
  | takeOffline {x : Slot} {t : Tank} {v : Service} (defined : x.tank = some t) (present : t.service = some v) :
      SlotChange lines now computes x { x.withdrawn with
        tank := some (t.leaveService v).tank, order := { x.withdrawn.order with mark := .noMark } }
  | retire {x : Slot} {t : Tank} (defined : x.tank = some t) (offline : t.service = none) :
      SlotChange lines now computes x { x.write 0 0 with tank := none }
  | mode {x : Slot} {t : Tank} (defined : x.tank = some t) (mode : Mode) (value : Nat) :
      SlotChange lines now computes x { x with tank := some { t with pendingMode := pendingFor mode value t.defn.rMax } }
  | inhibit {x : Slot} {t : Tank} (defined : x.tank = some t) (soft : Bool)
      (stays : t.service.isSome → (Tank.formInhibit lines { t with softInhibit := soft }).inhibited = true → t.inhibited = true) :
      SlotChange lines now computes x { x with tank := some (Tank.formInhibit lines { t with softInhibit := soft }) }
  | rise {x : Slot} {t : Tank} (defined : x.tank = some t) (soft : Bool) :
      SlotChange lines now computes x ({ x with tank := some (Tank.formInhibit lines { t with softInhibit := soft }) } : Slot).withdrawn
  | report {x : Slot} {t : Tank} {v : Service} (defined : x.tank = some t) (present : t.service = some v) {i : Fin 32}
      (ordered : now.orders[i].active = x.order.active) (level report : Nat) :
      SlotChange lines now computes x { x with tank := some (t.report now i level report v).tank }
  | stale {x : Slot} {t : Tank} {v : Service} (defined : x.tank = some t) (present : t.service = some v) :
      SlotChange lines now computes x { x with tank := some { t with service := some { v with level := v.level.expire t.defn now.ds } } }
  | lost {x : Slot} {t : Tank} {v : Service} (defined : x.tank = some t) (present : t.service = some v) {i : Fin 32}
      (ordered : now.orders[i].active = x.order.active) :
      SlotChange lines now computes x ({ x with tank := some (now.lostTank i t v) } : Slot).withdrawn
  | clearFault {x : Slot} {t : Tank} {v : Service} (defined : x.tank = some t) (present : t.service = some v) :
      SlotChange lines now computes x { x with tank := some { t with service := some (v.clearFaults t.defn x.order.active) } }
  | stall {x : Slot} {t : Tank} {v : Service} (defined : x.tank = some t) (present : t.service = some v)
      (free : v.stallLatches t.defn x.order.active = false) :
      SlotChange lines now computes x { x with tank := some { t with service := some (v.afterStall t.defn x.order.active) } }
  | latch {x : Slot} {t : Tank} {v : Service} (defined : x.tank = some t) (present : t.service = some v) :
      SlotChange lines now computes x
        ({ x with tank := some { t with service := some (v.afterStall t.defn x.order.active) } } : Slot).withdrawn
  | counts {x : Slot} {t : Tank} (defined : x.tank = some t) (time hours : Nat) :
      SlotChange lines now computes x { x with tank := some (t.resetCounts time hours).tank }
  | flag (x : Slot) : SlotChange lines now computes x { x with
      tank := x.tank.map fun t => t.mapService fun v => { v with spilling := v.spilling.restrict } }
  | imminent (x : Slot) (threshold : Nat) : SlotChange lines now computes x { x with
      tank := x.tank.map fun t => t.mapService fun v =>
        { v with level := { v.level with imminent := formImminent v.level.timeToSpill threshold } } }
  | cut {x : Slot} {active next : Nat} (activeCut : CutTo x.rMin x.order.active active)
      (nextCut : CutTo x.rMin x.order.next next) : SlotChange lines now computes x (x.write active next)
  | seen (x : Slot) : SlotChange lines now computes x { x with order := { x.order with activeChanged := false } }
  | delist (x : Slot) : SlotChange lines now computes x { x with listed := false }
  | trip {x y : Slot} (move : SlotTrip x y) : SlotChange lines now computes x y
  | compute {x y : Slot} (does : computes) (computed : SlotCompute x y) : SlotChange lines now computes x y
  | run {x y z : Slot} (does : computes) (moves : Relation.ReflTransGen SlotTrip x.promote y) (computed : SlotCompute y z) : SlotChange lines now computes x z
  | clear (x : Slot) : SlotChange lines now computes x
      { x.withdrawn with tank := x.withdrawn.tank.map fun t => t.clearState lines }

/-- A chain of changes of a slot. -/
abbrev SlotChanges (lines : Vector Bool 4) (now : State) (computes : Prop) : Slot → Slot → Prop := Relation.ReflTransGen (SlotChange lines now computes)

theorem SlotChange.changes {lines : Vector Bool 4} {now : State} {computes : Prop} {x y : Slot} (h : SlotChange lines now computes x y) :
    SlotChanges lines now computes x y := .single h

/-! ### Slots after the shared operations -/

section
variable (s : State) (i : Fin 32)

/-- A slot in which nothing has changed. -/
theorem State.slot_congr {s t : State} {i : Fin 32} (tanks : t.tanks[i] = s.tanks[i]) (orders : t.orders[i] = s.orders[i])
    (list : t.alloc.runOrder = s.alloc.runOrder) (tripped : t.guard.isTripped = s.guard.isTripped) : t.slot i = s.slot i := by
  simp only [State.slot, tanks, orders, list, tripped]

theorem State.setTank_tanks_self (t : Option Tank) : (s.setTank i t).tanks[i] = t := by simp

theorem State.setTank_tanks_of_ne {j : Fin 32} (h : j ≠ i) (t : Option Tank) : (s.setTank i t).tanks[j] = s.tanks[j] := by
  have : i.val ≠ j.val := fun e => h (Fin.ext e.symm)
  simp [this]

theorem State.setTank_slot_self (t : Option Tank) : (s.setTank i t).slot i = { s.slot i with tank := t } := by
  simp [State.slot]

theorem State.setTank_slot_of_ne {j : Fin 32} (h : j ≠ i) (t : Option Tank) : (s.setTank i t).slot j = s.slot j :=
  State.slot_congr (s.setTank_tanks_of_ne i h t) (by simp) (by simp) (by simp)

theorem State.mapTanks_tanks (f : Fin 32 → Tank → Tank) : (s.mapTanks f).tanks[i] = (s.tanks[i]).map (f i) := by
  simp [State.mapTanks]

theorem State.mapTanks_slot (f : Fin 32 → Tank → Tank) :
    (s.mapTanks f).slot i = { s.slot i with tank := (s.slot i).tank.map (f i) } := by
  simp [State.slot, State.mapTanks]

theorem OrderEntry.withActive_eq (e : OrderEntry) (n : Nat) :
    e.withActive n = { e with active := n, activeChanged := e.activeChanged || n != e.active } := by
  rw [withActive]
  split
  · next h => subst h; simp
  · next h => simp [h]

/-- A slot after a write of all active and next orders. -/
theorem State.write_slot (active next : Fin 32 → Nat) :
    ((s.writeActive active).writeNext next).slot i = (s.slot i).write (active i) (next i) := by
  simp [State.slot, Slot.write, OrderEntry.withActive_eq]

theorem State.zeroOrders_slot (p : Fin 32 → Bool) :
    (s.zeroOrders p).slot i = if p i then (s.slot i).write 0 0 else s.slot i := by
  split
  · next h => simp [State.slot, Slot.write, OrderEntry.withActive_eq, h, bne_comm]
  · next h => exact State.slot_congr (by simp [h]) (by simp [h]) (by simp) (by simp)

theorem State.withdraw_slot (p : Fin 32 → Bool) :
    (s.withdraw p).slot i = if p i then (s.slot i).withdrawn else s.slot i := by
  split
  · next h => simp [State.slot, Slot.withdrawn, Slot.write, OrderEntry.withActive_eq, h, bne_comm]
  · next h => simp [State.slot, h]

theorem Slot.write_same (x : Slot) (n : Nat) :
    x.write x.order.active n = { x with order := { x.order with next := n } } := by
  simp [Slot.write, OrderEntry.withActive_eq]

/-- The next orders alone written. -/
theorem State.writeNext_slot (next : Fin 32 → Nat) :
    (s.writeNext next).slot i = (s.slot i).write (s.slot i).order.active (next i) := by
  rw [Slot.write_same]
  simp [State.slot]

end

end Sys2Proof.Machine
end

section
/-! PROOFS. Every event takes each slot through a chain of slot changes. -/

namespace Sys2Proof.Machine

variable (s : State) (i : Fin 32)

/-! ### The computation -/

theorem State.grantFor_of_serviceAt {s : State} {i : Fin 32} {t : Tank} {v : Service} (h : s.serviceAt i = some (t, v))
    (remaining : Nat) : s.grantFor i remaining =
      grantAmount (demand s.alloc.period t v) remaining s.alloc.guardBand s.orders[i].active t.defn.rMin := by
  simp [grantFor, h]

theorem demand_le_rMax (period : Nat) (t : Tank) (v : Service) : demand period t v ≤ t.defn.rMax := by
  have ordinary : ordinaryDemand period t v ≤ t.defn.rMax := Nat.min_le_left _ _
  rw [demand]
  split
  · exact (Nat.min_le_left _ _).trans ordinary
  · exact ordinary

/-- The grants that a computation writes (R116). -/
def State.grants (s : State) : Vector Nat 32 :=
  (s.grantWalk s.grantOrder (availableBudget s - s.manualTotal)).amounts

theorem State.grants_of_not_eligible {s : State} {i : Fin 32} (h : s.eligible i = false) : s.grants[i] = 0 := by
  obtain ⟨-, other, -⟩ := s.grantWalk_spec s.grantOrder (availableBudget s - s.manualTotal) s.grantOrder_nodup
  exact other i fun hi => by simp [State.mem_grantOrder.1 hi] at h

/-- A grant is 0, or between Rmin and Rmax. -/
theorem State.grants_bounds {s : State} {i : Fin 32} {t : Tank} {v : Service} (present : s.serviceAt i = some (t, v)) :
    s.grants[i] = 0 ∨ t.defn.rMin ≤ s.grants[i] ∧ s.grants[i] ≤ t.defn.rMax := by
  cases he : s.eligible i with
  | false => exact .inl (State.grants_of_not_eligible he)
  | true =>
    obtain ⟨-, -, granted⟩ := s.grantWalk_spec s.grantOrder (availableBudget s - s.manualTotal) s.grantOrder_nodup
    obtain ⟨remaining, -, amount⟩ := granted i (State.mem_grantOrder.2 he)
    rw [State.grantFor_of_serviceAt present] at amount
    obtain ⟨-, low, bound⟩ := grantAmount_bounds (demand s.alloc.period t v) remaining s.alloc.guardBand s.orders[i].active t.defn.rMin
    have high := demand_le_rMax s.alloc.period t v
    rw [State.grants, amount]
    omega

/-- The manual value written is the pending one of a granted manual tank, and else 0 (R111). -/
theorem State.manualOrder_of_serviceAt {s : State} {i : Fin 32} {t : Tank} {v : Service} (h : s.serviceAt i = some (t, v)) :
    s.manualOrder i = if t.pendingMode.mode = .manual ∧ v.op ≠ .faulted ∧ t.inhibited = false then t.pendingMode.value else 0 := by
  obtain ⟨ht, -⟩ := State.serviceAt_eq_some.1 h
  rw [Fin.getElem_fin] at ht
  simp [manualOrder, grantedManual, h, ht, and_assoc]

theorem State.computedEntry_idle {s : State} {i : Fin 32} (h : s.serviceAt i = none) (grants : Vector Nat 32) :
    s.computedEntry grants i = { s.orders[i] with next := 0, mark := .noMark } := by
  simp [computedEntry, h]

theorem State.computedEntry_served {s : State} {i : Fin 32} {t : Tank} {v : Service} (h : s.serviceAt i = some (t, v))
    (grants : Vector Nat 32) : s.computedEntry grants i = { s.orders[i] with
      next := if s.guard.isTripped = true ∧ t.inForce.mode = .auto then 0 else s.writtenOrder grants i t
      mark := t.pendingMode.mode.mark } := by
  simp [computedEntry, h]

theorem computation_entry : (computation s).orders[i] = s.computedEntry s.grants i := computation_orders s i i.isLt

theorem computation_listed : (computation s).alloc.runOrder.contains i = s.eligible i := by
  rw [computation_runOrder, Bool.eq_iff_iff, List.contains_iff_mem, State.mem_grantOrder]

theorem computation_slot_eq : (computation s).slot i = { s.slot i with
    order := s.computedEntry s.grants i, listed := s.eligible i } := by
  simp only [State.slot, computation_entry, computation_listed, computation_tanks, computation_guard]

theorem computation_slot : SlotCompute (s.slot i) ((computation s).slot i) := by
  rw [computation_slot_eq]
  cases present : s.serviceAt i with
  | none =>
    have idle : ∀ t, (s.slot i).tank = some t → t.service = none := by
      intro t ht
      cases hv : t.service with
      | none => rfl
      | some v => simp [State.serviceAt_of ht hv] at present
    have free : s.eligible i = false := by simp [State.eligible, present]
    rw [State.computedEntry_idle present, free]
    exact .idle idle
  | some p =>
    obtain ⟨t, v⟩ := p
    obtain ⟨ht, hv⟩ := State.serviceAt_eq_some.1 present
    have conditions := State.eligible_of_serviceAt present
    rw [State.computedEntry_served present]
    refine .served ht hv ?_ fun he => ?_
    · split_ifs with tripped
      · exact .inl rfl
      · have free : (s.slot i).tripped = true → t.inForce.mode ≠ .auto := fun h e => tripped ⟨h, e⟩
        rw [State.writtenOrder]
        cases hm : t.pendingMode.mode with
        | manual =>
          simp only [State.manualOrder_of_serviceAt present, hm, true_and]
          split_ifs with granted
          · exact .inr ⟨free, granted.1, granted.2, .inl rfl⟩
          · exact .inl rfl
        | auto =>
          rcases State.grants_bounds present with zero | ⟨low, high⟩
          · exact .inl zero
          · cases he : s.eligible i with
            | false => exact .inl (State.grants_of_not_eligible he)
            | true =>
              obtain ⟨-, force, -, fault, inhibit, -⟩ := conditions.1 he
              exact .inr ⟨free, fault, inhibit, .inr ⟨rfl, force, low, high⟩⟩
    · obtain ⟨-, force, -, fault, inhibit, -⟩ := conditions.1 he
      exact ⟨force, fault, inhibit⟩

/-! ### Promotion -/

theorem State.promotedOrder_eq : s.promotedOrder i = (s.slot i).promoted := by
  rw [promotedOrder, Slot.promoted, serviceAt]
  cases ht : s.tanks[i] with
  | none => simp [State.slot, ht]
  | some t => cases hv : t.service <;> simp [State.slot, ht, hv]

theorem promoteOrders_order : (promoteOrders s).orders[i] =
    { (s.orders[i]).withActive (s.slot i).promoted with next := s.orders[i].next } := by
  rw [← State.promotedOrder_eq, OrderEntry.withActive_eq]
  simp [promoteOrders]

theorem promoteOrders_tank : (promoteOrders s).tanks[i] = (s.tanks[i]).map fun t =>
    { (t.mapService (Service.activeChange t.defn s.orders[i].active (s.slot i).promoted)).mapService
        (Service.takeSnapshot (s.slot i).promoted) with inForce := t.pendingMode } := by
  have snapshots : ∀ s : State, s.takeSnapshots.tanks[i] =
      (s.tanks[i]).map fun t => t.mapService (Service.takeSnapshot s.orders[i].active) := by
    intro s
    simp only [State.takeSnapshots, State.mapTanks_tanks]
    rfl
  rw [promoteOrders, snapshots, State.mapTanks_tanks]
  simp [State.promotedOrder_eq, Option.map_map, Function.comp_def, Tank.mapService]

theorem promoteOrders_slot : (promoteOrders s).slot i = (s.slot i).promote := by
  have listed : (promoteOrders s).alloc.runOrder.contains i =
      (s.alloc.runOrder.contains i && !((s.tanks[i]).map fun t => t.pendingMode.mode == .manual).getD false) := by
    rw [promoteOrders_alloc, Bool.eq_iff_iff]
    cases ht : s.tanks[i] with
    | none => simp [State.tankIs_undefined ht]
    | some t => simp [State.tankIs_of ht]
  simp only [State.slot, promoteOrders_tank, promoteOrders_order, listed, promoteOrders_guard]
  rfl

/-! ### The trip machine -/

theorem State.setTrip_slot (t : Trip) (h : ∀ e, t ≠ .tripped e) : (s.setTrip t).slot i = { s.slot i with tripped := false } := by
  cases t with
  | tripped e => exact absurd rfl (h e)
  | armed f => simp [State.slot, Guard.isTripped]
  | blanked e => simp [State.slot, Guard.isTripped]

theorem State.autoInService_iff : s.autoInService i = true ↔
    ∃ t, (s.slot i).tank = some t ∧ t.service.isSome ∧ t.inForce.mode = .auto := by
  rw [autoInService]
  cases ht : s.tanks[i] with
  | none => simp [State.tankIs_undefined ht, State.slot, ht]
  | some t => simp [State.tankIs_of ht, State.slot, ht]

/-- Entry into TRIPPED at a slot: the zeroing of a tank in AUTO in force, and the flagging of its spill. -/
theorem enterTripped_slot : (enterTripped s).slot i = { (if s.autoInService i then (s.slot i).write 0 0 else s.slot i) with
    tank := (if s.autoInService i then (s.slot i).write 0 0 else s.slot i).tank.map fun t =>
      t.mapService fun v => { v with spilling := v.spilling.restrict }
    tripped := true } := by
  rw [enterTripped]
  dsimp only
  generalize hu : ({ s with guard := { s.guard with
    trip := .tripped (s.ds + 10 * s.guard.offTime), tripCount := satAdd max16 s.guard.tripCount 1 } } : State) = u
  have zeroed : (u.zeroOrders s.autoInService).slot i = if s.autoInService i then (u.slot i).write 0 0 else u.slot i :=
    u.zeroOrders_slot i _
  have slot : u.slot i = { s.slot i with tripped := true } := by
    rw [← hu]
    rfl
  have posted : ∀ (w : State) (p : AllocationPost), (w.postAllocation p).slot i = w.slot i := fun w p =>
    State.slot_congr (by simp) (by simp) (by simp) (by simp)
  rw [posted, State.flagSpills, State.mapTanks_slot, zeroed, slot]
  split <;> rfl

theorem TripMove.slot {s t : State} (h : TripMove s t) (i : Fin 32) : SlotTrip (s.slot i) (t.slot i) := by
  cases h with
  | armed => rw [State.setTrip_slot _ _ _ (by simp)]; exact .leave _
  | filtering => rw [State.setTrip_slot _ _ _ (by simp)]; exact .leave _
  | blanked => rw [enterBlanked, State.setTrip_slot _ _ _ (by simp)]; exact .leave _
  | tripped =>
    rw [enterTripped_slot]
    split
    · next auto => exact .enter _ ((s.autoInService_iff i).1 auto)
    · next other =>
      exact .pass _ fun t ht hv hm => other ((s.autoInService_iff i).2 ⟨t, ht, hv, hm⟩)

theorem TripMoves.slot {s t : State} (h : TripMoves s t) (i : Fin 32) :
    Relation.ReflTransGen SlotTrip (s.slot i) (t.slot i) := by
  induction h with
  | refl => exact .refl
  | tail _ move ih => exact ih.tail (move.slot i)

/-! ### Stall evaluation, inhibit, shed, CLEAR_STATE -/

theorem State.postTanks_slot (posts : Fin 32 → List TankPost) : (s.postTanks posts).slot i = s.slot i :=
  State.slot_congr (by simp) (by simp) (by simp) (by simp)

theorem stallStage_slot (lines : Vector Bool 4) (now : State) (computes : Prop) : SlotChanges lines now computes (s.slot i) ((stallStage s).slot i) := by
  rw [stallStage]
  rw [State.withdraw_slot, State.postTanks_slot, State.mapTanks_slot]
  cases present : s.serviceAt i with
  | none =>
    have same : (s.slot i).tank.map (fun t => t.mapService (Service.afterStall t.defn s.orders[i].active)) = (s.slot i).tank := by
      cases ht : s.tanks[i] with
      | none => simp [State.slot, ht]
      | some t =>
        cases hv : t.service with
        | none => cases t; simp_all [State.slot, Tank.mapService]
        | some v => simp [State.serviceAt_of ht hv] at present
    simp only [Bool.false_eq_true, if_false, same]
    exact .refl
  | some p =>
    obtain ⟨t, v⟩ := p
    obtain ⟨ht, hv⟩ := State.serviceAt_eq_some.1 present
    have after : (s.slot i).tank.map (fun t => t.mapService (Service.afterStall t.defn s.orders[i].active)) =
        some { t with service := some (v.afterStall t.defn (s.slot i).order.active) } := by
      simp only [State.slot, ht, Option.map_some, Tank.mapService, hv]
    simp only [after]
    split
    · exact (SlotChange.latch ht hv).changes
    · next free => exact (SlotChange.stall ht hv (by simpa [State.slot] using free)).changes

/-- The effective inhibit formed anew at a slot: it stays, falls, or rises and withdraws the tank (R13, R15). -/
theorem State.formInhibits_slot (p : Fin 32 → Bool) {t : Tank} (ht : s.tanks[i] = some t) (hp : p i = true) :
    (s.formInhibits p).slot i =
      if t.service.isSome = true ∧ t.inhibited = false ∧ (t.formInhibit s.pins.zinh).inhibited = true then
        ({ s.slot i with tank := some (t.formInhibit s.pins.zinh) } : Slot).withdrawn
      else { s.slot i with tank := some (t.formInhibit s.pins.zinh) } := by
  rw [formInhibits]
  dsimp only
  rw [State.withdraw_slot, State.mapTanks_slot]
  have rises : (p i && s.tankIs (fun t => t.service.isSome && !t.inhibited && (t.formInhibit s.pins.zinh).inhibited) i) = true ↔
      t.service.isSome = true ∧ t.inhibited = false ∧ (t.formInhibit s.pins.zinh).inhibited = true := by
    simp [State.tankIs_of ht, hp, and_assoc]
  have formed : (s.slot i).tank.map (fun t => if p i then t.formInhibit s.pins.zinh else t) = some (t.formInhibit s.pins.zinh) := by
    simp [State.slot, ht, hp]
  rw [formed]
  exact if_congr rises rfl rfl

theorem State.formInhibits_slot_other (p : Fin 32 → Bool) (h : s.tanks[i] = none ∨ p i = false) :
    (s.formInhibits p).slot i = s.slot i := by
  rw [formInhibits]
  rw [State.withdraw_slot, State.mapTanks_slot]
  rcases h with h | h
  · rw [State.tankIs_undefined h, Bool.and_false, if_neg Bool.false_ne_true]
    simp [State.slot, h]
  · simp [h]

/-- One walk of a shed cuts orders (R120): the account is the sum of what the walk may cut, so nothing rises. -/
theorem shedWalk_cut (automatic manual : Fin 32 → Bool) (amount : Fin 32 → Nat) :
    (shedWalk s automatic manual amount).amounts[i] = amount i ∨
      (shedWalk s automatic manual amount).amounts[i] ≤ amount i ∧
        ((shedWalk s automatic manual amount).amounts[i] = 0 ∨ s.rMinAt i ≤ (shedWalk s automatic manual amount).amounts[i]) := by
  have auto : ∀ j ∈ shedOrder automatic amount s.alloc.runOrder, automatic j = true := by
    intro j hj
    simp only [shedOrder, List.mem_append, List.mem_filter, Bool.and_eq_true] at hj
    rcases hj with ⟨-, ⟨h, -⟩, -⟩ | ⟨-, h⟩ <;> exact h
  obtain ⟨r, hr, -, -, each, -⟩ := shedFold_spec s.rMinAt
    (s.alloc.budget - sumTanks fun j => if manual j then amount j else 0) automatic (shedOrder automatic amount s.alloc.runOrder)
    { amounts := Vector.ofFn amount, account := sumTanks fun j => if automatic j then amount j else 0 } auto (by simp)
  obtain ⟨le, kept⟩ := each i
  have walk : shedWalk s automatic manual amount = r := hr.symm
  have start : (Vector.ofFn amount)[i] = amount i := by simp
  rw [start] at le kept
  rw [walk]
  by_cases h : r.amounts[i] = amount i
  · exact .inl h
  · exact .inr ⟨le, kept h⟩

theorem CutTo.of_walk {rMin old new : Nat} (h : new = old ∨ new ≤ old ∧ (new = 0 ∨ rMin ≤ new)) : CutTo rMin old new := by
  rcases h with h | ⟨le, h | h⟩
  · exact .inl h
  · exact .inr (.inl h)
  · exact .inr (.inr ⟨le, h⟩)

/-- A shed at a slot: both orders come to what the walks leave of them. -/
theorem shed_slot_eq : (shed s).slot i = (s.slot i).write (shedActive s)[i] (shedNext s)[i] := by
  have posted : ∀ (w : State) (p : AllocationPost), (w.postAllocation p).slot i = w.slot i := fun w p =>
    State.slot_congr (by simp) (by simp) (by simp) (by simp)
  rw [shed]
  split
  · rw [posted, State.write_slot]
  · rw [State.write_slot]

theorem shed_slot (lines : Vector Bool 4) (now : State) (computes : Prop) : SlotChanges lines now computes (s.slot i) ((shed s).slot i) := by
  rw [shed_slot_eq]
  exact (SlotChange.cut (CutTo.of_walk (shedWalk_cut s i s.autoActive s.manualActive fun j => s.orders[j].active))
    (CutTo.of_walk (shedWalk_cut s i s.autoNext s.manualNext fun j => s.orders[j].next))).changes

theorem setBudget_slot (b : Nat) (lines : Vector Bool 4) (now : State) (computes : Prop) : SlotChanges lines now computes (s.slot i) ((setBudget b s).slot i) := by
  have put : (s.putBudget b).slot i = s.slot i := rfl
  rw [setBudget_eq]
  split
  · rw [← put]
    exact shed_slot _ i lines now computes
  · rw [put]

theorem clearBlocks_slot : (clearBlocks s).slot i =
    { (s.slot i).withdrawn with tank := (s.slot i).withdrawn.tank.map fun t => t.clearState s.pins.zinh } := by
  have cleared : (clearBlocks s).slot i = { ((s.zeroOrders fun _ => true).mapTanks fun _ t => t.clearState s.pins.zinh).slot i with
      listed := false } := rfl
  rw [cleared, State.mapTanks_slot, State.zeroOrders_slot, if_pos rfl]
  rfl

/-! ### The events -/

theorem SlotChanges.of_eq {lines : Vector Bool 4} {now : State} {computes : Prop} {x y : Slot} (h : y = x) : SlotChanges lines now computes x y := by
  rw [h]

/-- A slot whose record alone is written, and the slots beside it. -/
theorem State.setTank_slots {lines : Vector Bool 4} {now : State} {computes : Prop} {k : Fin 32} (t : Option Tank)
    (h : SlotChange lines now computes (s.slot k) { s.slot k with tank := t }) : SlotChanges lines now computes (s.slot i) ((s.setTank k t).slot i) := by
  by_cases hi : i = k
  · subst hi
    rw [State.setTank_slot_self]
    exact h.changes
  · rw [State.setTank_slot_of_ne _ _ hi]

theorem clearMark_slot (k : Fin 32) : (s.clearMark k).slot i =
    if i = k then { s.slot i with order := { (s.slot i).order with mark := .noMark } } else s.slot i := by
  split
  · next h => subst h; simp [State.slot, State.clearMark]
  · next h =>
    have : k.val ≠ i.val := fun e => h (Fin.ext e.symm)
    simp [State.slot, State.clearMark, this]

theorem clearEntry_slot (k : Fin 32) : (s.clearEntry k).slot i =
    if i = k then { s.slot i with order := { s.orders[i] with active := 0, next := 0, mark := .noMark } } else s.slot i := by
  split
  · next h => subst h; simp [State.slot, State.clearEntry]
  · next h =>
    have : k.val ≠ i.val := fun e => h (Fin.ext e.symm)
    simp [State.slot, State.clearEntry, this]

/-- A setting written: only the imminent threshold reaches the tanks. -/
theorem writeSetting_slot (n v : Nat) (lines : Vector Bool 4) (now : State) (computes : Prop) : SlotChanges lines now computes (s.slot i) ((s.writeSetting n v).slot i) := by
  rw [State.writeSetting.eq_def]
  split
  case h_4 =>
    rw [State.formImminents]
    dsimp only
    rw [State.postTanks_slot, State.mapTanks_slot]
    exact (SlotChange.imminent _ _).changes
  all_goals exact .refl

theorem zinhEvent_slot {now : State} {computes : Prop} (z : Fin 4) (level : Bool) {t : State} (h : t = zinhEvent z { s with
    pins := { s.pins with zinh := s.pins.zinh.set z level } }) : SlotChanges t.pins.zinh now computes (s.slot i) (t.slot i) := by
  subst h
  rw [zinhEvent]
  generalize hu : ({ s with pins := { s.pins with zinh := s.pins.zinh.set z level } } : State) = u
  have slot : s.slot i = u.slot i := by rw [← hu]; rfl
  rw [slot, State.formInhibits_pins]
  cases ht : u.tanks[i] with
  | none => rw [State.formInhibits_slot_other _ _ _ (.inl ht)]
  | some t =>
    cases hz : t.defn.zone == z with
    | false => rw [State.formInhibits_slot_other _ _ _ (.inr (by rw [State.tankIs_of ht, hz]))]
    | true =>
      rw [State.formInhibits_slot _ _ _ ht (by rw [State.tankIs_of ht, hz])]
      split
      · exact (SlotChange.rise ht t.softInhibit).changes
      · next stays =>
        refine (SlotChange.inhibit ht t.softInhibit fun hv hf => ?_).changes
        by_contra hn
        exact stays ⟨hv, by simpa using hn, hf⟩

theorem setInhibit_slot {now : State} {computes : Prop} {k : Fin 32} {t : Tank} (ht : s.tanks[k] = some t) (flag : Bool) :
    SlotChanges s.pins.zinh now computes (s.slot i) (((s.setTank k (some { t with softInhibit := flag })).formInhibits fun j => j == k).slot i) := by
  by_cases hi : i = k
  · subst hi
    rw [State.formInhibits_slot _ _ _ (State.setTank_tanks_self ..) (by simp), State.setTank_slot_self, State.setTank_pins]
    split
    · exact (SlotChange.rise ht flag).changes
    · next stays =>
      refine (SlotChange.inhibit ht flag fun hv hf => ?_).changes
      by_contra hn
      exact stays ⟨hv, by simpa using hn, hf⟩
  · rw [State.formInhibits_slot_other _ _ _ (.inr (by simpa using hi)), State.setTank_slot_of_ne _ _ hi]

theorem State.startPeriod_slot : s.startPeriod.slot i = s.slot i :=
  State.slot_congr rfl rfl rfl rfl

theorem stopAllocator_slot : (stopAllocator s).slot i = { s.slot i with listed := false } := rfl

/-- Every event takes each slot through a chain of slot changes. -/
theorem Event.slot {s t : State} (h : Event s t) (i : Fin 32) : SlotChanges t.pins.zinh s (Computes s t) (s.slot i) (t.slot i) := by
  cases h with
  | talked | lineInReset | capSel | intake | mask | collect | clearNotices | restartPeriod | startHold | moveHold | override | endHold
    | defineGauge | redefineGauge | retireGauge | tip | endStorm | defineCatchment | redefineCatchment | acknowledge =>
    exact .refl
  | release => exact .refl
  | storeBank => exact .refl
  | reset =>
    have gone : (resetState s).slot i = { tank := none, order := OrderEntry.zero, listed := false, tripped := false } := by
      simp [State.slot, resetState, State.held, Allocator.atReset, Guard.atReset, Guard.isTripped]
    rw [gone]
    exact (SlotChange.reset _).changes
  | zinh z level => exact zinhEvent_slot s i z level rfl
  | setting n v => exact writeSetting_slot s i n _ _ _ _
  | dropTankNotices | postTank | postAllocation | retireCatchment | evaluate | forecast | floorExpiry =>
    exact SlotChanges.of_eq (State.slot_congr (by simp [evaluateAll]) (by simp [evaluateAll]) (by simp [evaluateAll])
      (by simp [evaluateAll]))
  | readOrders =>
    have seen : ({ s with orders := s.orders.map fun e => { e with activeChanged := false } } : State).slot i =
        { s.slot i with order := { (s.slot i).order with activeChanged := false } } := by
      simp [State.slot]
    rw [seen]
    exact (SlotChange.seen _).changes
  | @createTank released k c z f ok named undefined =>
    rw [clearEntry_slot]
    split
    · next hi =>
      subst hi
      rw [State.setTank_slot_self]
      exact (SlotChange.create ok named released undefined).changes
    · next hi => rw [State.setTank_slot_of_ne _ _ hi]
  | redefineTank _ ok named defined offline => exact s.setTank_slots i _ (.redefine ok named defined offline)
  | loadTables defined offline stage rating => exact s.setTank_slots i _ (.tables defined offline stage rating)
  | place defined offline => exact s.setTank_slots i _ (.place defined offline)
  | @takeOffline k t v present =>
    obtain ⟨defined, served⟩ := State.serviceAt_eq_some.1 present
    by_cases hi : i = k
    · subst hi
      rw [State.setTank_slot_self, clearMark_slot, if_pos rfl, State.withdraw_slot, if_pos (by simp)]
      exact (SlotChange.takeOffline defined served).changes
    · rw [State.setTank_slot_of_ne _ _ hi, clearMark_slot, if_neg hi, State.withdraw_slot, if_neg (by simpa using hi)]
  | @retireTank k t defined offline =>
    by_cases hi : i = k
    · subst hi
      rw [State.setTank_slot_self, State.zeroOrders_slot, if_pos (by simp)]
      exact (SlotChange.retire defined offline).changes
    · rw [State.setTank_slot_of_ne _ _ hi, State.zeroOrders_slot, if_neg (by simpa using hi)]
  | setMode defined mode value => exact s.setTank_slots i _ (.mode defined mode value)
  | setInhibit defined flag =>
    rw [State.formInhibits_pins, State.setTank_pins]
    exact setInhibit_slot s i defined flag
  | report present level report =>
    obtain ⟨defined, served⟩ := State.serviceAt_eq_some.1 present
    exact s.setTank_slots i _ (.report defined served rfl level report)
  | stale present =>
    obtain ⟨defined, served⟩ := State.serviceAt_eq_some.1 present
    exact s.setTank_slots i _ (.stale defined served)
  | @lost k t v present =>
    obtain ⟨defined, served⟩ := State.serviceAt_eq_some.1 present
    rw [State.withdraw_slot, State.postTank, State.postTanks_slot]
    by_cases hi : i = k
    · subst hi
      rw [if_pos (by simp), State.setTank_slot_self]
      exact (SlotChange.lost defined served rfl).changes
    · rw [if_neg (by simpa using hi), State.setTank_slot_of_ne _ _ hi]
  | clearFault present =>
    obtain ⟨defined, served⟩ := State.serviceAt_eq_some.1 present
    exact s.setTank_slots i _ (.clearFault defined served)
  | stalls => exact stallStage_slot s i _ _ _
  | resetCounts defined => exact s.setTank_slots i _ (.counts defined s.now s.windowHours)
  | resetAllCounts =>
    rw [State.mapTanks_slot]
    cases ht : s.tanks[i] with
    | none =>
      have same : (s.slot i).tank = none := ht
      rw [same, Option.map_none, ← same]
    | some t =>
      have tank : (s.slot i).tank = some t := ht
      rw [tank]
      exact (SlotChange.counts tank s.now s.windowHours).changes
  | flagSpills =>
    rw [State.flagSpills, State.mapTanks_slot]
    exact (SlotChange.flag _).changes
  | storeSelectedBank b => exact setBudget_slot (s.storeBank s.alloc.selected b) i b _ _ _
  | settle => exact setBudget_slot s.selectObserved i _ _ _ _
  | stop =>
    rw [stopAllocator_slot, State.zeroOrders_slot, if_pos rfl]
    exact ((SlotChange.cut (.inr (.inl rfl)) (.inr (.inl rfl))).changes).tail (.delist _)
  | computes now =>
    cases now with
    | start released =>
      rw [State.startPeriod_slot]
      exact (SlotChange.compute (.start released)
        (computation_slot { s with alloc := { s.alloc with running := true } } i)).changes
    | compute running => exact (SlotChange.compute (.compute running) (computation_slot s i)).changes
    | promote running =>
      refine (SlotChange.run (.promote running) ?_ (computation_slot _ i)).changes
      rw [← promoteOrders_slot]
      exact (promotion_moves s).slot i
  | trip move => exact (SlotChange.trip (move.slot i)).changes
  | extend tripped n => exact SlotChanges.of_eq (State.slot_congr rfl rfl rfl tripped.symm)
  | zeroAutoNext =>
    rw [State.zeroAutoNext, State.writeNext_slot]
    refine (SlotChange.cut (.inl rfl) ?_).changes
    split
    · exact .inr (.inl rfl)
    · exact .inl rfl
  | clearBlocks =>
    rw [clearBlocks_slot, clearBlocks_pins]
    exact (SlotChange.clear _).changes

/-! ### Laws of slots -/

/-- A law of slots that every slot change keeps is kept by every step. -/
theorem Kept.of_slots {P : Slot → Prop} (h : ∀ {lines : Vector Bool 4} {now : State} {computes : Prop} {x y : Slot},
    SlotChange lines now computes x y → P x → P y) :
    Kept fun s => ∀ i, P (s.slot i) where
  event {s t} e hs i := by
    have chain := e.slot i
    generalize t.slot i = y at chain
    induction chain with
    | refl => exact hs i
    | tail _ change ih => exact h change ih
  count _ _ hs := hs

end Sys2Proof.Machine
end

section
/-! PROOFS. The op states: every slot change leaves the op state that R16 gives, and so every step does. -/

namespace Sys2Proof.Machine

/-! ### The op state formed -/

/-- FAULTED stands for a latched fault, and for nothing else (R16). -/
theorem formOp_faulted_iff (d : TankDef) (l : LevelState) (v : Supervisor) (active : Nat) :
    formOp d l v active = .faulted ↔ latchedFault d v = true := by
  rw [formOp]
  split
  · next h => simp [h]
  · next h =>
    simp only [h]
    split
    · simp
    · split_ifs <;> simp

/-- The op state reads the fault flags, the last level and the net rate (R16). -/
theorem formOp_congr {d : TankDef} {l m : LevelState} {v w : Supervisor} (active : Nat) (stall : w.stall = v.stall)
    (lost : w.levelLost = v.levelLost) (level : m.lastLevel = l.lastLevel) (rate : m.netRate = l.netRate) :
    formOp d m w active = formOp d l v active := by
  rw [formOp, formOp, latchedFault, latchedFault, stall, lost, level, rate]

theorem Supervisor.turn_flags (old new : Nat) (v : Supervisor) :
    (v.turn old new).stall = v.stall ∧ (v.turn old new).levelLost = v.levelLost := by
  rw [turn]
  split_ifs <;> exact ⟨rfl, rfl⟩

/-- Stall evaluation leaves LEVEL_LOST alone. -/
theorem Service.evaluated_levelLost (d : TankDef) (active : Nat) (v : Service) :
    (v.evaluated d active).1.levelLost = v.supervisor.levelLost := by
  rw [evaluated]
  dsimp only
  split_ifs
  · rw [Supervisor.evaluate]
    split
    · rfl
    · dsimp only
      split_ifs <;> rfl
    · dsimp only
      split_ifs <;> rfl
  · rfl

/-- The service part has the op state of R16 for this active order. -/
def Service.formed (d : TankDef) (active : Nat) (v : Service) : Prop :=
  v.op = formOp d v.level v.supervisor active

/-- An IN_SERVICE tank has the op state of R16 for this active order. -/
def Tank.formed (active : Nat) (t : Tank) : Prop :=
  ∀ v, t.service = some v → v.formed t.defn active

/-- The op state of a slot is the one of R16. -/
def Slot.formed (x : Slot) : Prop :=
  ∀ t, x.tank = some t → t.formed x.order.active

theorem opStatesFormed_iff (s : State) : OpStatesFormed s ↔ ∀ i, (s.slot i).formed := by
  refine ⟨fun h i t ht v hv => h i (t, v) (State.serviceAt_of ht hv), fun h i p hp => ?_⟩
  obtain ⟨ht, hv⟩ := State.serviceAt_eq_some.1 hp
  exact h i p.1 ht p.2 hv

section
variable {d : TankDef} {t : Tank} {v w : Service} {active : Nat}

theorem Tank.formed_of_offline (h : t.service = none) : t.formed active := by
  intro v hv
  simp [h] at hv

theorem Tank.formed_of_same {t u : Tank} (h : t.formed active) (defn : u.defn = t.defn) (service : u.service = t.service) :
    u.formed active := by
  rw [formed, defn, service]
  exact h

/-- A change of a service part that keeps what the op state reads keeps it formed. -/
theorem Service.formed_of_same (h : v.formed d active) (op : w.op = v.op) (stall : w.supervisor.stall = v.supervisor.stall)
    (lost : w.supervisor.levelLost = v.supervisor.levelLost) (level : w.level.lastLevel = v.level.lastLevel)
    (rate : w.level.netRate = v.level.netRate) : w.formed d active := by
  rw [formed, op, formOp_congr active stall lost level rate]
  exact h

theorem Tank.formed_mapService {f : Service → Service} (new : Nat) (h : t.formed active)
    (hf : ∀ v : Service, v.formed t.defn active → (f v).formed t.defn new) : (t.mapService f).formed new := by
  intro w hw
  obtain ⟨v, hv, rfl⟩ := Option.map_eq_some_iff.1 hw
  exact hf v (h v hv)

theorem Service.activeChange_formed (new : Nat) (h : v.formed d active) : (v.activeChange d active new).formed d new := by
  rw [activeChange]
  split
  · next e => exact e ▸ h
  · rfl

theorem Service.afterStall_formed (h : v.formed d active) : (v.afterStall d active).formed d active := by
  rw [afterStall]
  split
  · next same => exact Service.formed_of_same h rfl same (v.evaluated_levelLost d active) rfl rfl
  · rfl

theorem Service.takeSnapshot_formed (new : Nat) (h : v.formed d active) : (v.takeSnapshot new).formed d active := by
  rw [takeSnapshot]
  split
  · exact Service.formed_of_same h rfl rfl rfl rfl rfl
  · exact h

theorem Service.fresh_formed : Service.fresh.formed d active := by
  simp [formed, Service.fresh, formOp, latchedFault, Supervisor.fresh, LevelState.fresh]

theorem Tank.clearState_formed (lines : Vector Bool 4) (t : Tank) (active : Nat) : (t.clearState lines).formed active := by
  intro v hv
  rw [clearState] at hv
  split at hv
  · next offline => simp [formInhibit, offline] at hv
  · obtain rfl := Option.some.inj hv
    exact Service.fresh_formed

theorem Tank.resetCounts_formed (now hours : Nat) (h : t.formed active) : (t.resetCounts now hours).tank.formed active := by
  rw [resetCounts]
  split
  · intro w hw
    obtain ⟨v, hv, rfl⟩ := Option.map_eq_some_iff.1 hw
    exact h v hv
  · exact h

end

/-! ### The slot changes -/

section
variable {x y : Slot}

theorem Slot.write_formed (active next : Nat) (h : x.formed) : (x.write active next).formed := by
  intro u hu
  obtain ⟨t, ht, rfl⟩ := Option.map_eq_some_iff.1 hu
  rw [write, OrderEntry.withActive_eq]
  exact Tank.formed_mapService active (h t ht) fun v hv => Service.activeChange_formed active hv

theorem Slot.withdrawn_formed (h : x.formed) : x.withdrawn.formed :=
  x.write_formed 0 0 h

/-- A change of the service part that keeps the op state formed. -/
theorem Slot.mapService_formed {f : Service → Service} {tripped : Bool} (h : x.formed)
    (hf : ∀ (d : TankDef) (v : Service), v.formed d x.order.active → (f v).formed d x.order.active) :
    ({ x with tank := x.tank.map fun t => t.mapService f, tripped := tripped } : Slot).formed := by
  intro u hu
  obtain ⟨t, ht, rfl⟩ := Option.map_eq_some_iff.1 hu
  exact Tank.formed_mapService _ (h t ht) fun v hv => hf _ v hv

theorem Service.restrict_formed (d : TankDef) (active : Nat) (v : Service) (h : v.formed d active) :
    ({ v with spilling := v.spilling.restrict } : Service).formed d active := h

theorem SlotTrip.formed (h : SlotTrip x y) (hx : x.formed) : y.formed := by
  cases h with
  | leave => exact hx
  | enter => exact Slot.mapService_formed (x.write_formed 0 0 hx) fun d v => v.restrict_formed d _
  | pass => exact Slot.mapService_formed hx fun d v => v.restrict_formed d _

theorem SlotCompute.formed (h : SlotCompute x y) (hx : x.formed) : y.formed := by
  cases h with
  | idle => exact hx
  | served => exact hx

theorem Slot.promote_formed (h : x.formed) : x.promote.formed := by
  intro u hu
  obtain ⟨t, ht, rfl⟩ := Option.map_eq_some_iff.1 hu
  rw [promote, write, OrderEntry.withActive_eq]
  exact Tank.formed_mapService (active := x.promoted) _
    (Tank.formed_mapService _ (h t ht) fun v hv => Service.activeChange_formed x.promoted hv) fun v hv => Service.takeSnapshot_formed _ hv

/-- A law of slots that every move of the trip machine keeps. -/
theorem SlotTrip.chain {P : Slot → Prop} (h : ∀ {x y : Slot}, SlotTrip x y → P x → P y) (moves : Relation.ReflTransGen SlotTrip x y)
    (hx : P x) : P y := by
  induction moves with
  | refl => exact hx
  | tail _ move ih => exact h move ih

theorem Slot.formed_of_tank {t : Tank} (h : t.formed x.order.active) : ({ x with tank := some t } : Slot).formed := by
  intro u hu
  obtain rfl := Option.some.inj hu
  exact h

/-- Every slot change leaves the op state of R16. -/
theorem SlotChange.formed {lines : Vector Bool 4} {now : State} {computes : Prop} (h : SlotChange lines now computes x y) (hx : x.formed) : y.formed := by
  cases h with
  | reset =>
    intro t ht
    simp at ht
  | create =>
    intro u hu
    obtain rfl := Option.some.inj hu
    exact Tank.formed_of_offline rfl
  | redefine _ _ _ offline => exact Slot.formed_of_tank (Tank.formed_of_offline offline)
  | tables _ offline => exact Slot.formed_of_tank (Tank.formed_of_offline offline)
  | place =>
    refine Slot.formed_of_tank fun v hv => ?_
    obtain rfl := Option.some.inj hv
    exact Service.fresh_formed
  | takeOffline =>
    intro u hu
    obtain rfl := Option.some.inj hu
    exact Tank.formed_of_offline rfl
  | retire =>
    intro t ht
    simp at ht
  | mode defined => exact Slot.formed_of_tank (Tank.formed_of_same (hx _ defined) rfl rfl)
  | inhibit defined => exact Slot.formed_of_tank (Tank.formed_of_same (hx _ defined) rfl rfl)
  | rise defined => exact Slot.withdrawn_formed (Slot.formed_of_tank (Tank.formed_of_same (hx _ defined) rfl rfl))
  | report defined present ordered =>
    refine Slot.formed_of_tank fun v hv => ?_
    obtain rfl := Option.some.inj hv
    rw [← ordered]
    rfl
  | stale defined present =>
    refine Slot.formed_of_tank fun v hv => ?_
    obtain rfl := Option.some.inj hv
    exact Service.formed_of_same (hx _ defined _ present) rfl rfl rfl rfl rfl
  | lost defined present ordered =>
    refine Slot.withdrawn_formed (Slot.formed_of_tank fun v hv => ?_)
    obtain rfl := Option.some.inj hv
    rw [← ordered]
    rfl
  | clearFault defined present =>
    refine Slot.formed_of_tank fun v hv => ?_
    obtain rfl := Option.some.inj hv
    rfl
  | stall defined present =>
    refine Slot.formed_of_tank fun v hv => ?_
    obtain rfl := Option.some.inj hv
    exact Service.afterStall_formed (hx _ defined _ present)
  | latch defined present =>
    refine Slot.withdrawn_formed (Slot.formed_of_tank fun v hv => ?_)
    obtain rfl := Option.some.inj hv
    exact Service.afterStall_formed (hx _ defined _ present)
  | counts defined now hours => exact Slot.formed_of_tank (Tank.resetCounts_formed now hours (hx _ defined))
  | flag => exact Slot.mapService_formed hx fun d v => v.restrict_formed d _
  | imminent => exact Slot.mapService_formed hx fun d v hv => Service.formed_of_same hv rfl rfl rfl rfl rfl
  | cut => exact Slot.write_formed _ _ hx
  | seen => exact hx
  | delist => exact hx
  | trip move => exact move.formed hx
  | compute _ computed => exact computed.formed hx
  | run _ moves computed => exact computed.formed (SlotTrip.chain SlotTrip.formed moves (Slot.promote_formed hx))
  | clear =>
    intro u hu
    obtain ⟨t, -, rfl⟩ := Option.map_eq_some_iff.1 hu
    exact Tank.clearState_formed lines t _

end

theorem formed_kept : Kept fun s => ∀ i, (s.slot i).formed :=
  Kept.of_slots fun change => change.formed

/-- Settles O52, slot change by slot change. -/
theorem opStatesStayFormed : Obligations.OpStatesStayFormed := by
  intro s t hs h
  rw [opStatesFormed_iff] at hs ⊢
  exact formed_kept.step h hs

end Sys2Proof.Machine
end

section
/-! PROOFS. The order laws (R127, R133, R117): the limits of every order, both orders 0 while TRIPPED, and the tanks of the run order
list, each a law of slots. -/

namespace Sys2Proof.Machine

/-! ### Tanks that may hold orders -/

/-- A tank that may hold orders: IN_SERVICE, not FAULTED, not inhibited (R127). -/
def Tank.mayHold (t : Tank) : Prop :=
  ∃ v, t.service = some v ∧ v.op ≠ .faulted ∧ t.inhibited = false

/-- The tank of a slot may hold orders. -/
def Slot.mayHold (x : Slot) : Prop :=
  ∃ t, x.tank = some t ∧ t.mayHold

/-- A slot that holds no order and is not in the list. -/
def Slot.dropped (x : Slot) : Prop :=
  x.order.active = 0 ∧ x.order.next = 0 ∧ x.listed = false

theorem mayHoldOrders_iff (s : State) (i : Fin 32) : MayHoldOrders s i ↔ (s.slot i).mayHold := by
  constructor
  · rintro ⟨⟨t, v⟩, hp, op, free⟩
    obtain ⟨ht, hv⟩ := State.serviceAt_eq_some.1 hp
    exact ⟨t, ht, v, hv, op, free⟩
  · rintro ⟨t, ht, v, hv, op, free⟩
    exact ⟨(t, v), State.serviceAt_of ht hv, op, free⟩

theorem Slot.withdrawn_dropped (x : Slot) : x.withdrawn.dropped := by
  rw [dropped, withdrawn, write, OrderEntry.withActive_eq]
  exact ⟨rfl, rfl, rfl⟩

section
variable {d : TankDef} {t : Tank} {v : Service} {active : Nat} {x y : Slot}

/-- A tank with the op state of R16 may hold orders exactly without a latched fault and an inhibit. -/
theorem Tank.mayHold_of_flags {w : Service} (present : t.service = some w) (formed : w.formed t.defn active)
    (fault : latchedFault t.defn w.supervisor = false) (free : t.inhibited = false) : t.mayHold := by
  refine ⟨w, present, ?_, free⟩
  rw [formed, Ne, formOp_faulted_iff, fault]
  exact Bool.false_ne_true

theorem Service.not_latched (formed : v.formed d active) (op : v.op ≠ .faulted) : latchedFault d v.supervisor = false := by
  rwa [formed, Ne, formOp_faulted_iff, Bool.not_eq_true] at op

/-- A change of the service part that raises no latched fault and keeps the op state formed. -/
theorem Tank.mayHold_mapService {f : Service → Service} (new : Nat) (formed : t.formed active) (h : t.mayHold)
    (keeps : ∀ v : Service, v.formed t.defn active → (f v).formed t.defn new)
    (faults : ∀ v : Service, (f v).supervisor.stall = v.supervisor.stall ∧ (f v).supervisor.levelLost = v.supervisor.levelLost) :
    (t.mapService f).mayHold := by
  obtain ⟨v, hv, op, free⟩ := h
  have formed := formed v hv
  obtain ⟨stall, lost⟩ := faults v
  refine Tank.mayHold_of_flags (w := f v) (congrArg (Option.map f) hv) (keeps v formed) ?_ free
  have fault := Service.not_latched formed op
  rw [latchedFault] at fault ⊢
  rwa [stall, lost]

theorem Service.activeChange_faults (old new : Nat) (v : Service) :
    (v.activeChange d old new).supervisor.stall = v.supervisor.stall ∧
      (v.activeChange d old new).supervisor.levelLost = v.supervisor.levelLost := by
  rw [activeChange]
  split
  · exact ⟨rfl, rfl⟩
  · exact v.supervisor.turn_flags old new

theorem Service.takeSnapshot_faults (n : Nat) (v : Service) :
    (v.takeSnapshot n).supervisor.stall = v.supervisor.stall ∧ (v.takeSnapshot n).supervisor.levelLost = v.supervisor.levelLost := by
  rw [takeSnapshot]
  split <;> exact ⟨rfl, rfl⟩

theorem Slot.write_mayHold (active next : Nat) (formed : x.formed) (h : x.mayHold) : (x.write active next).mayHold := by
  obtain ⟨t, ht, hold⟩ := h
  refine ⟨t.mapService (Service.activeChange t.defn x.order.active active), congrArg (Option.map _) ht, ?_⟩
  exact Tank.mayHold_mapService active (formed t ht) hold (fun _ hv => Service.activeChange_formed active hv)
    fun v => v.activeChange_faults _ _

theorem Slot.restrict_mayHold {tripped : Bool} (h : x.mayHold) : ({ x with
    tank := x.tank.map fun t => t.mapService fun v => { v with spilling := v.spilling.restrict }
    tripped := tripped } : Slot).mayHold := by
  obtain ⟨t, ht, v, hv, op, free⟩ := h
  exact ⟨_, congrArg (Option.map _) ht, _, congrArg (Option.map _) hv, op, free⟩

theorem SlotTrip.mayHold (h : SlotTrip x y) (formed : x.formed) (hold : x.mayHold) : y.mayHold := by
  cases h with
  | leave => exact hold
  | enter => exact Slot.restrict_mayHold (x.write_mayHold 0 0 formed hold)
  | pass => exact Slot.restrict_mayHold hold

theorem SlotCompute.mayHold_iff (h : SlotCompute x y) : y.mayHold ↔ x.mayHold := by
  cases h with
  | idle => exact Iff.rfl
  | served => exact Iff.rfl

theorem Slot.promote_mayHold (formed : x.formed) (hold : x.mayHold) : x.promote.mayHold := by
  obtain ⟨t, ht, hold⟩ := hold
  refine ⟨_, congrArg (Option.map _) ht, ?_⟩
  have ordered := Tank.mayHold_mapService x.promoted (formed t ht) hold
    (fun _ hv => Service.activeChange_formed x.promoted hv) fun v => v.activeChange_faults _ _
  exact Tank.mayHold_mapService (active := x.promoted) x.promoted
    (Tank.formed_mapService x.promoted (formed t ht) fun _ hv => Service.activeChange_formed x.promoted hv) ordered
    (fun _ hv => Service.takeSnapshot_formed _ hv) fun v => v.takeSnapshot_faults _

theorem SlotTrip.chain_mayHold (moves : Relation.ReflTransGen SlotTrip x y) (formed : x.formed) (hold : x.mayHold) : y.mayHold :=
  (SlotTrip.chain (P := fun x => x.formed ∧ x.mayHold) (fun move h => ⟨move.formed h.1, move.mayHold h.1 h.2⟩) moves
    ⟨formed, hold⟩).2

/-- Stall evaluation without a latch raises no latched fault on a tank that has none. -/
theorem Service.afterStall_not_latched (free : v.stallLatches d active = false) (h : latchedFault d v.supervisor = false) :
    latchedFault d (v.afterStall d active).supervisor = false := by
  have lost := v.evaluated_levelLost d active
  have sup : (v.afterStall d active).supervisor = (v.evaluated d active).1 := by rw [afterStall]
  rw [sup]
  simp only [stallLatches, latchedFault, Bool.or_eq_false_iff, Bool.and_eq_false_iff, Bool.not_eq_false'] at free h ⊢
  obtain ⟨levelLost, stall⟩ := h
  refine ⟨lost.trans levelLost, ?_⟩
  rcases free with (stands | held) | other
  · exact .inl stands
  · rcases stall with clear | other
    · simp [held] at clear
    · exact .inr other
  · exact .inr other

/-- A report raises no latched fault on a tank that has none (R41). -/
theorem Tank.report_mayHold {s : State} {i : Fin 32} (present : t.service = some v) (formed : v.formed t.defn active)
    (level report : Nat) (h : t.mayHold) : (t.report s i level report v).tank.mayHold := by
  obtain ⟨w, hw, op, free⟩ := h
  obtain rfl := Option.some.inj (present.symm.trans hw)
  have fault := Service.not_latched formed op
  refine Tank.mayHold_of_flags (active := s.orders[i].active) rfl rfl ?_ free
  simp only [latchedFault, Bool.or_eq_false_iff] at fault ⊢
  exact ⟨by rw [fault.1, Bool.false_and], fault.2⟩

/-- Every slot change keeps a tank able to hold orders, or drops it from allocation. -/
theorem SlotChange.mayHold {lines : Vector Bool 4} {now : State} {computes : Prop} (h : SlotChange lines now computes x y) (formed : x.formed) (hold : x.mayHold) :
    y.mayHold ∨ y.dropped := by
  have known {t : Tank} (ht : x.tank = some t) : t.mayHold := by
    obtain ⟨u, hu, hold⟩ := hold
    exact Option.some.inj (ht.symm.trans hu) ▸ hold
  have served {t : Tank} (ht : x.tank = some t) (hv : t.service = none) : False := by
    obtain ⟨v, present, -⟩ := known ht
    simp [hv] at present
  cases h with
  | reset => exact .inr ⟨rfl, rfl, rfl⟩
  | create _ _ _ undefined =>
    obtain ⟨t, ht, -⟩ := hold
    simp [undefined] at ht
  | redefine _ _ defined offline => exact (served defined offline).elim
  | tables defined offline => exact (served defined offline).elim
  | place defined offline => exact (served defined offline).elim
  | takeOffline => exact .inr x.withdrawn_dropped
  | retire defined offline => exact (served defined offline).elim
  | mode defined =>
    obtain ⟨v, hv, op, free⟩ := known defined
    exact .inl ⟨_, rfl, v, hv, op, free⟩
  | inhibit defined soft stays =>
    obtain ⟨v, hv, op, free⟩ := known defined
    refine .inl ⟨_, rfl, v, hv, op, Bool.eq_false_iff.2 fun rises => ?_⟩
    rw [stays (by simp [hv]) rises] at free
    exact Bool.noConfusion free
  | rise => exact .inr (Slot.withdrawn_dropped _)
  | report defined present _ level report =>
    exact .inl ⟨_, rfl, Tank.report_mayHold present (formed _ defined _ present) level report (known defined)⟩
  | stale defined present =>
    obtain ⟨v, hv, op, free⟩ := known defined
    obtain rfl := Option.some.inj (present.symm.trans hv)
    exact .inl ⟨_, rfl, _, rfl, op, free⟩
  | lost => exact .inr (Slot.withdrawn_dropped _)
  | clearFault defined =>
    obtain ⟨-, -, -, free⟩ := known defined
    exact .inl ⟨_, rfl, Tank.mayHold_of_flags rfl rfl rfl free⟩
  | stall defined present latch =>
    obtain ⟨v, hv, op, free⟩ := known defined
    obtain rfl := Option.some.inj (present.symm.trans hv)
    have formed := formed _ defined _ present
    exact .inl ⟨_, rfl, Tank.mayHold_of_flags rfl (Service.afterStall_formed formed)
      (Service.afterStall_not_latched latch (Service.not_latched formed op)) free⟩
  | latch => exact .inr (Slot.withdrawn_dropped _)
  | @counts t defined now hours =>
    obtain ⟨v, hv, op, free⟩ := known defined
    refine .inl ⟨_, rfl, ?_⟩
    rw [Tank.resetCounts]
    split
    · exact ⟨_, congrArg (Option.map _) hv, op, free⟩
    · exact ⟨v, hv, op, free⟩
  | flag => exact .inl (Slot.restrict_mayHold hold)
  | imminent =>
    obtain ⟨t, ht, v, hv, op, free⟩ := hold
    exact .inl ⟨_, congrArg (Option.map _) ht, _, congrArg (Option.map _) hv, op, free⟩
  | cut => exact .inl (x.write_mayHold _ _ formed hold)
  | seen => exact .inl hold
  | delist => exact .inl hold
  | trip move => exact .inl (move.mayHold formed hold)
  | compute _ computed => exact .inl (computed.mayHold_iff.2 hold)
  | run _ moves computed =>
    exact .inl (computed.mayHold_iff.2 (SlotTrip.chain_mayHold moves (Slot.promote_formed formed) (Slot.promote_mayHold formed hold)))
  | clear => exact .inr x.withdrawn_dropped

end

/-! ### The limits of the orders (R127) -/

/-- Both manual values are within Rmax (R3, R11). -/
def Tank.valuesOk (t : Tank) : Prop :=
  t.inForce.value ≤ t.defn.rMax ∧ t.pendingMode.value ≤ t.defn.rMax

/-- The orders of a tank are within Rmax, and an automatic one is 0 or at least Rmin (R127). -/
def OrderEntry.within (t : Tank) (e : OrderEntry) : Prop :=
  e.active ≤ t.defn.rMax ∧ e.next ≤ t.defn.rMax ∧ (t.inForce.mode = .auto → e.active = 0 ∨ t.defn.rMin ≤ e.active) ∧
    (e.mark = .auto → e.next = 0 ∨ t.defn.rMin ≤ e.next)

/-- The order laws of R127 at a slot. -/
def Slot.limits (x : Slot) : Prop :=
  (∀ t, x.tank = some t → t.valuesOk ∧ x.order.within t) ∧ (¬x.mayHold → x.order.active = 0 ∧ x.order.next = 0)

theorem ordersWithinLimits_iff (s : State) : OrdersWithinLimits s ↔ ∀ i, (s.slot i).limits := by
  refine forall_congr' fun i => ?_
  rw [mayHoldOrders_iff]
  refine and_congr (forall_congr' fun t => forall_congr' fun _ => ?_) Iff.rfl
  exact and_assoc.symm

section
variable {t u : Tank} {x y : Slot}

theorem OrderEntry.within_of_zero {e : OrderEntry} (active : e.active = 0) (next : e.next = 0) : e.within t :=
  ⟨by omega, by omega, fun _ => .inl active, fun _ => .inl next⟩

/-- With both orders 0 only the manual values are left to check. -/
theorem Slot.limits_of_zero (active : x.order.active = 0) (next : x.order.next = 0) (h : ∀ t, x.tank = some t → t.valuesOk) :
    x.limits :=
  ⟨fun t ht => ⟨h t ht, OrderEntry.within_of_zero active next⟩, fun _ => ⟨active, next⟩⟩

/-- Where a slot that may not hold orders holds none, a change to one that may hold them or holds none keeps that. -/
theorem Slot.limits_idle (h : ¬x.mayHold → x.order.active = 0 ∧ x.order.next = 0) (hold : x.mayHold → y.mayHold ∨ y.dropped)
    (zero : x.order.active = 0 → x.order.next = 0 → y.order.active = 0 ∧ y.order.next = 0) :
    ¬y.mayHold → y.order.active = 0 ∧ y.order.next = 0 := by
  intro idle
  by_cases hx : x.mayHold
  · rcases hold hx with hy | ⟨active, next, -⟩
    · exact absurd hy idle
    · exact ⟨active, next⟩
  · obtain ⟨active, next⟩ := h hx
    exact zero active next

theorem CutTo.bounds {rMin old new rMax : Nat} (h : CutTo rMin old new) (high : old ≤ rMax) :
    new ≤ rMax ∧ (old = 0 → new = 0) ∧ (old = 0 ∨ rMin ≤ old → new = 0 ∨ rMin ≤ new) := by
  rcases h with rfl | rfl | ⟨le, low⟩
  · exact ⟨high, id, id⟩
  · exact ⟨Nat.zero_le _, fun _ => rfl, fun _ => .inl rfl⟩
  · exact ⟨by omega, by omega, fun _ => .inr low⟩

theorem Slot.rMin_of {x : Slot} (h : x.tank = some t) : x.rMin = t.defn.rMin := by
  rw [rMin, h]

theorem SlotTrip.limits (h : SlotTrip x y) (formed : x.formed) (hx : x.limits) : y.limits := by
  have idle := Slot.limits_idle hx.2 fun hold => .inl (h.mayHold formed hold)
  cases h with
  | leave => exact hx
  | enter =>
    refine Slot.limits_of_zero ?_ rfl fun u hu => ?_
    · rw [Slot.write, OrderEntry.withActive_eq]
    · obtain ⟨w, hw, rfl⟩ := Option.map_eq_some_iff.1 hu
      obtain ⟨t, ht, rfl⟩ := Option.map_eq_some_iff.1 hw
      exact (hx.1 t ht).1
  | pass =>
    refine ⟨fun u hu => ?_, idle fun active next => ⟨active, next⟩⟩
    obtain ⟨t, ht, rfl⟩ := Option.map_eq_some_iff.1 hu
    exact hx.1 t ht

theorem Mode.mark_auto {m : Mode} : m.mark = .auto ↔ m = .auto := by
  cases m <;> simp [mark]

theorem SlotCompute.limits (h : SlotCompute x y) (hx : x.limits) : y.limits := by
  obtain ⟨each, idle⟩ := hx
  cases h with
  | idle =>
    refine ⟨fun t ht => ?_, fun hold => ⟨(idle hold).1, rfl⟩⟩
    obtain ⟨values, high, -, low, -⟩ := each t ht
    exact ⟨values, high, Nat.zero_le _, low, fun _ => .inl rfl⟩
  | @served t v defined present n listed written eligible =>
    obtain ⟨values, high, -, low, -⟩ := each t defined
    refine ⟨fun u hu => ?_, fun hold => ⟨(idle hold).1, ?_⟩⟩
    · obtain rfl := Option.some.inj (defined.symm.trans hu)
      have bounded : n ≤ t.defn.rMax := by
        rcases written with rfl | ⟨-, -, -, ⟨-, rfl⟩ | ⟨-, -, -, le⟩⟩
        · exact Nat.zero_le _
        · exact values.2
        · exact le
      refine ⟨values, high, bounded, low, fun mark => ?_⟩
      rcases written with rfl | ⟨-, -, -, ⟨manual, -⟩ | ⟨-, -, le, -⟩⟩
      · exact .inl rfl
      · rw [Mode.mark_auto.1 mark] at manual
        exact Mode.noConfusion manual
      · exact .inr le
    · rcases written with rfl | ⟨-, op, free, -⟩
      · rfl
      · exact absurd ⟨t, defined, v, present, op, free⟩ hold

theorem Slot.promoted_le (x : Slot) : x.promoted ≤ x.order.next := by
  rw [promoted]
  split
  · split_ifs
    · exact le_rfl
    · exact Nat.zero_le _
  · exact Nat.zero_le _

/-- An active order put in force is 0, or the next order of an IN_SERVICE tank, whose mark is that of the pending mode (R129). -/
theorem Slot.promoted_cases {x : Slot} (h : x.tank = some t) : x.promoted = 0 ∨
    x.promoted = x.order.next ∧ t.service.isSome ∧ x.order.mark = t.pendingMode.mode.mark := by
  simp only [promoted, h]
  split_ifs with agreed
  · exact .inr ⟨rfl, agreed⟩
  · exact .inl rfl

theorem Slot.promote_order (x : Slot) : x.promote.order =
    { x.order with active := x.promoted, activeChanged := x.order.activeChanged || x.promoted != x.order.active } := by
  rw [promote, write, OrderEntry.withActive_eq]

theorem Slot.promote_limits (formed : x.formed) (hx : x.limits) : x.promote.limits := by
  have zero : x.order.active = 0 → x.order.next = 0 → x.promote.order.active = 0 ∧ x.promote.order.next = 0 := by
    intro _ next
    rw [promote_order]
    exact ⟨Nat.le_zero.1 (next ▸ x.promoted_le), next⟩
  refine ⟨fun u hu => ?_, Slot.limits_idle hx.2 (fun hold => .inl (x.promote_mayHold formed hold)) zero⟩
  obtain ⟨t, ht, rfl⟩ := Option.map_eq_some_iff.1 hu
  obtain ⟨values, -, high, -, low⟩ := hx.1 t ht
  rw [promote_order]
  refine ⟨⟨values.2, values.2⟩, x.promoted_le.trans high, high, fun auto => ?_, low⟩
  rcases Slot.promoted_cases ht with zero | ⟨next, -, mark⟩
  · exact .inl zero
  · rw [next]
    exact low (mark.trans (Mode.mark_auto.2 auto))

theorem pendingFor_le (m : Mode) (value rMax : Nat) : (pendingFor m value rMax).value ≤ rMax := by
  cases m with
  | auto => exact Nat.zero_le _
  | manual => exact Nat.min_le_right _ _

/-- Every slot change keeps the limits of the orders. -/
theorem SlotChange.limits {lines : Vector Bool 4} {now : State} {computes : Prop} (h : SlotChange lines now computes x y) (formed : x.formed) (hx : x.limits) : y.limits := by
  have idle := Slot.limits_idle hx.2 (h.mayHold formed)
  cases h with
  | reset => exact Slot.limits_of_zero rfl rfl fun t ht => by simp at ht
  | create =>
    refine Slot.limits_of_zero rfl rfl fun t ht => ?_
    obtain rfl := Option.some.inj ht
    exact ⟨Nat.zero_le _, Nat.zero_le _⟩
  | redefine _ _ defined offline =>
    obtain ⟨active, next⟩ := hx.2 fun ⟨t, ht, v, hv, _⟩ => by
      obtain rfl := Option.some.inj (defined.symm.trans ht)
      simp [offline] at hv
    refine Slot.limits_of_zero active next fun t ht => ?_
    obtain rfl := Option.some.inj ht
    exact ⟨Nat.min_le_right _ _, Nat.min_le_right _ _⟩
  | tables defined | place defined | inhibit defined | report defined | stale defined | clearFault defined | stall defined =>
    refine ⟨fun t ht => ?_, idle fun active next => ⟨active, next⟩⟩
    obtain rfl := Option.some.inj ht
    have known := hx.1 _ defined
    exact known
  | takeOffline defined =>
    obtain ⟨active, next, -⟩ := x.withdrawn_dropped
    refine Slot.limits_of_zero active next fun t ht => ?_
    obtain rfl := Option.some.inj ht
    have known := hx.1 _ defined
    exact known.1
  | retire =>
    obtain ⟨active, next, -⟩ := x.withdrawn_dropped
    exact Slot.limits_of_zero active next fun t ht => by simp at ht
  | @mode t defined m value =>
    refine ⟨fun u hu => ?_, idle fun active next => ⟨active, next⟩⟩
    obtain rfl := Option.some.inj hu
    obtain ⟨⟨force, -⟩, within⟩ := hx.1 _ defined
    exact ⟨⟨force, pendingFor_le m value t.defn.rMax⟩, within⟩
  | rise defined | lost defined | latch defined =>
    obtain ⟨active, next, -⟩ := Slot.withdrawn_dropped _
    refine Slot.limits_of_zero active next fun u hu => ?_
    obtain rfl := Option.some.inj hu
    have known := hx.1 _ defined
    exact known.1
  | @counts t defined now hours =>
    refine ⟨fun u hu => ?_, idle fun active next => ⟨active, next⟩⟩
    obtain rfl := Option.some.inj hu
    have same : (t.resetCounts now hours).tank.defn = t.defn ∧ (t.resetCounts now hours).tank.inForce = t.inForce ∧
        (t.resetCounts now hours).tank.pendingMode = t.pendingMode := by
      rw [Tank.resetCounts]
      split <;> exact ⟨rfl, rfl, rfl⟩
    rw [Tank.valuesOk, OrderEntry.within, same.1, same.2.1, same.2.2]
    exact hx.1 t defined
  | flag | imminent =>
    refine ⟨fun u hu => ?_, idle fun active next => ⟨active, next⟩⟩
    obtain ⟨t, ht, rfl⟩ := Option.map_eq_some_iff.1 hu
    exact hx.1 t ht
  | @cut active next activeCut nextCut =>
    have order : (x.write active next).order.active = active ∧ (x.write active next).order.next = next ∧
        (x.write active next).order.mark = x.order.mark := by
      rw [Slot.write, OrderEntry.withActive_eq]
      exact ⟨rfl, rfl, rfl⟩
    refine ⟨fun u hu => ?_, idle fun hactive hnext => ?_⟩
    · obtain ⟨t, ht, rfl⟩ := Option.map_eq_some_iff.1 hu
      obtain ⟨values, activeHigh, nextHigh, activeLow, nextLow⟩ := hx.1 t ht
      rw [Slot.rMin_of ht] at activeCut nextCut
      obtain ⟨high, -, low⟩ := activeCut.bounds activeHigh
      obtain ⟨high', -, low'⟩ := nextCut.bounds nextHigh
      rw [OrderEntry.within, order.1, order.2.1, order.2.2]
      exact ⟨values, high, high', fun auto => low (activeLow auto), fun auto => low' (nextLow auto)⟩
    · rw [order.1, order.2.1]
      exact ⟨(activeCut.bounds le_rfl).2.1 hactive, (nextCut.bounds le_rfl).2.1 hnext⟩
  | seen => exact hx
  | delist => exact hx
  | trip move => exact move.limits formed hx
  | compute _ computed => exact computed.limits hx
  | run _ moves computed =>
    exact computed.limits (SlotTrip.chain (P := fun x => x.formed ∧ x.limits)
      (fun move h => ⟨move.formed h.1, move.limits h.1 h.2⟩) moves ⟨x.promote_formed formed, x.promote_limits formed hx⟩).2
  | clear =>
    obtain ⟨active, next, -⟩ := x.withdrawn_dropped
    refine Slot.limits_of_zero active next fun u hu => ?_
    obtain ⟨w, hw, rfl⟩ := Option.map_eq_some_iff.1 hu
    obtain ⟨t, ht, rfl⟩ := Option.map_eq_some_iff.1 hw
    rw [Tank.clearState]
    split <;> exact (hx.1 t ht).1

end

theorem limits_kept : Kept fun s => ∀ i, (s.slot i).formed ∧ (s.slot i).limits :=
  Kept.of_slots (P := fun x => x.formed ∧ x.limits) fun change h => ⟨change.formed h.1, change.limits h.1 h.2⟩

/-- Settles O53, slot change by slot change, with the op states formed beside the limits. -/
theorem ordersStayWithinLimits : Obligations.OrdersStayWithinLimits := by
  intro s t formed limits h
  rw [opStatesFormed_iff] at formed
  rw [ordersWithinLimits_iff] at limits ⊢
  exact fun i => (limits_kept.step h (fun i => ⟨formed i, limits i⟩) i).2

end Sys2Proof.Machine
end

section
/-! PROOFS. The trip law and the run order list (R117, R133): outside a move of the trip machine, a computation and a run, an event only
lowers the orders of a slot, and keeps its mode in force where an order stands. -/

namespace Sys2Proof.Machine

/-! ### Changes that only lower orders -/

/-- The mode in force at a slot. -/
def Slot.mode (x : Slot) : Option Mode :=
  x.tank.map fun t => t.inForce.mode

/-- A change under which no order rises, no mark of a standing order moves, and the mode in force stands unless the slot is dropped or
held no tank that may hold orders. -/
structure Slot.Lowers (x y : Slot) : Prop where
  active : y.order.active ≤ x.order.active
  next : y.order.next ≤ x.order.next
  listed : y.listed = true → x.listed = true
  mark : y.order.next = 0 ∨ y.order.mark = x.order.mark
  mode : y.dropped ∨ ¬x.mayHold ∧ y.order.active = 0 ∧ y.order.next = 0 ∨ y.mode = x.mode

section
variable {x y : Slot}

theorem Slot.Lowers.of_dropped (dropped : y.dropped) : x.Lowers y := by
  obtain ⟨active, next, listed⟩ := dropped
  exact ⟨by omega, by omega, fun h => by simp [listed] at h, .inl next, .inl ⟨active, next, listed⟩⟩

/-- The record alone changes, and its mode in force stands. -/
theorem Slot.Lowers.of_tank (order : y.order = x.order) (listed : y.listed = x.listed) (mode : y.mode = x.mode) : x.Lowers y :=
  ⟨by rw [order], by rw [order], by rw [listed]; exact id, .inr (by rw [order]), .inr (.inr mode)⟩

theorem Slot.mode_of_map {f : Tank → Tank} (tank : y.tank = x.tank.map f) (hf : ∀ t, (f t).inForce = t.inForce) :
    y.mode = x.mode := by
  rw [mode, mode, tank]
  cases x.tank with
  | none => rfl
  | some t => rw [Option.map_some, Option.map_some, Option.map_some, hf]

theorem Slot.write_order (x : Slot) (active next : Nat) : (x.write active next).order.active = active ∧
    (x.write active next).order.next = next ∧ (x.write active next).order.mark = x.order.mark := by
  rw [write, OrderEntry.withActive_eq]
  exact ⟨rfl, rfl, rfl⟩

theorem CutTo.le {rMin old new : Nat} (h : CutTo rMin old new) : new ≤ old := by
  rcases h with rfl | rfl | ⟨le, -⟩
  · exact le_rfl
  · exact Nat.zero_le _
  · exact le

theorem Slot.Lowers.of_write {active next : Nat} (ha : active ≤ x.order.active) (hn : next ≤ x.order.next) :
    x.Lowers (x.write active next) := by
  obtain ⟨active, next, mark⟩ := x.write_order active next
  exact ⟨active.le.trans ha, next.le.trans hn, id, .inr mark, .inr (.inr (Slot.mode_of_map rfl fun _ => rfl))⟩

theorem Slot.Lowers.trans_mode {z : Slot} (h : x.Lowers y) (order : z.order = y.order) (listed : z.listed = y.listed)
    (mode : z.mode = y.mode) : x.Lowers z := by
  obtain ⟨active, next, list, mark, same⟩ := h
  refine ⟨by rwa [order], by rwa [order], by rwa [listed], by rwa [order], ?_⟩
  rwa [Slot.dropped, order, listed, mode]

/-- A move of the trip machine only lowers orders. -/
theorem SlotTrip.lowers (h : SlotTrip x y) : x.Lowers y := by
  cases h with
  | leave => exact .of_tank rfl rfl rfl
  | enter =>
    exact (Slot.Lowers.of_write (Nat.zero_le _) (Nat.zero_le _)).trans_mode rfl rfl (Slot.mode_of_map rfl fun _ => rfl)
  | pass => exact .of_tank rfl rfl (Slot.mode_of_map rfl fun _ => rfl)

/-- What a change of a slot is: it lowers orders and does not enter TRIPPED, or it is a move of the trip machine, a computation or a
run. -/
theorem SlotChange.cases {lines : Vector Bool 4} {now : State} {computes : Prop} (h : SlotChange lines now computes x y) :
    x.Lowers y ∧ (y.tripped = true → x.tripped = true) ∨ SlotTrip x y ∨
      computes ∧ (SlotCompute x y ∨ ∃ z, Relation.ReflTransGen SlotTrip x.promote z ∧ SlotCompute z y) := by
  cases h with
  | reset => exact .inl ⟨.of_dropped ⟨rfl, rfl, rfl⟩, fun h => nomatch h⟩
  | create _ _ _ undefined =>
    refine .inl ⟨⟨Nat.zero_le _, Nat.zero_le _, id, .inl rfl, .inr (.inl ⟨?_, rfl, rfl⟩)⟩, id⟩
    rintro ⟨t, ht, -⟩
    simp [undefined] at ht
  | redefine _ _ defined | tables defined | place defined | mode defined | inhibit defined | report defined | stale defined
    | clearFault defined | stall defined =>
    exact .inl ⟨.of_tank rfl rfl (by simp only [Slot.mode, defined]; rfl), id⟩
  | takeOffline | rise | lost | latch => exact .inl ⟨.of_dropped (Slot.withdrawn_dropped _), id⟩
  | retire defined offline =>
    obtain ⟨active, next, -⟩ := x.write_order 0 0
    refine .inl ⟨⟨active.le.trans (Nat.zero_le _), next.le.trans (Nat.zero_le _), id, .inl next, .inr (.inl ⟨?_, active, next⟩)⟩, id⟩
    rintro ⟨t, ht, v, hv, -⟩
    obtain rfl := Option.some.inj (defined.symm.trans ht)
    simp [offline] at hv
  | @counts t defined now hours =>
    have same : (t.resetCounts now hours).tank.inForce = t.inForce := by
      rw [Tank.resetCounts]
      split <;> rfl
    exact .inl ⟨.of_tank rfl rfl (by simp only [Slot.mode, defined, Option.map_some, same]), id⟩
  | flag | imminent => exact .inl ⟨.of_tank rfl rfl (Slot.mode_of_map rfl fun _ => rfl), id⟩
  | cut activeCut nextCut => exact .inl ⟨.of_write activeCut.le nextCut.le, id⟩
  | seen => exact .inl ⟨⟨le_rfl, le_rfl, id, .inr rfl, .inr (.inr rfl)⟩, id⟩
  | delist => exact .inl ⟨⟨le_rfl, le_rfl, fun h => by simp at h, .inr rfl, .inr (.inr rfl)⟩, id⟩
  | trip move => exact .inr (.inl move)
  | compute now computed => exact .inr (.inr ⟨now, .inl computed⟩)
  | run now moves computed => exact .inr (.inr ⟨now, .inr ⟨_, moves, computed⟩⟩)
  | clear => exact .inl ⟨.of_dropped x.withdrawn_dropped, id⟩

/-! ### The trip law (R133) -/

/-- The active order of a tank in AUTO in force is 0 while TRIPPED. -/
def Slot.tripActive (x : Slot) : Prop :=
  x.tripped = true → x.mode = some .auto → x.order.active = 0

/-- The next order of a tank in AUTO in force is 0 while TRIPPED. -/
def Slot.tripNext (x : Slot) : Prop :=
  x.tripped = true → x.mode = some .auto → x.order.next = 0

/-- A next order marked AUTO that is not 0 belongs to a tank in AUTO in force (R112, R128). -/
def Slot.marked (x : Slot) : Prop :=
  x.order.mark = .auto → x.order.next ≠ 0 → x.mode = some .auto

theorem Slot.mode_eq_some {m : Mode} : x.mode = some m ↔ ∃ t, x.tank = some t ∧ t.inForce.mode = m :=
  Option.map_eq_some_iff

theorem tripHoldsOrders_iff (s : State) : TripHoldsOrders s ↔ ∀ i, (s.slot i).tripActive ∧ (s.slot i).tripNext := by
  constructor
  · intro h i
    refine ⟨fun tripped mode => ?_, fun tripped mode => ?_⟩
    · obtain ⟨t, ht, auto⟩ := Slot.mode_eq_some.1 mode
      exact (h tripped i t ht auto).1
    · obtain ⟨t, ht, auto⟩ := Slot.mode_eq_some.1 mode
      exact (h tripped i t ht auto).2
  · intro h tripped i t ht auto
    have mode : (s.slot i).mode = some .auto := Slot.mode_eq_some.2 ⟨t, ht, auto⟩
    exact ⟨(h i).1 tripped mode, (h i).2 tripped mode⟩

theorem State.autoActive_iff (s : State) (i : Fin 32) : s.autoActive i = true ↔ (s.slot i).mode = some .auto := by
  rw [autoActive]
  cases ht : s.tanks[i] with
  | none => simp [State.tankIs_undefined ht, Slot.mode, State.slot, ht]
  | some t => simp [State.tankIs_of ht, Slot.mode, State.slot, ht]

theorem autoMarksInForce_iff (s : State) : AutoMarksInForce s ↔ ∀ i, (s.slot i).marked :=
  forall_congr' fun i => by rw [State.autoActive_iff]; rfl

theorem Slot.Lowers.tripActive (h : x.Lowers y) (tripped : y.tripped = true → x.tripped = true) (hx : x.tripActive) :
    y.tripActive := by
  intro hy mode
  rcases h.mode with dropped | ⟨-, zero, -⟩ | same
  · exact dropped.1
  · exact zero
  · exact Nat.le_zero.1 (h.active.trans (hx (tripped hy) (same ▸ mode)).le)

theorem Slot.Lowers.tripNext (h : x.Lowers y) (tripped : y.tripped = true → x.tripped = true) (hx : x.tripNext) :
    y.tripNext := by
  intro hy mode
  rcases h.mode with dropped | ⟨-, -, zero⟩ | same
  · exact dropped.2.1
  · exact zero
  · exact Nat.le_zero.1 (h.next.trans (hx (tripped hy) (same ▸ mode)).le)

theorem Slot.Lowers.marked (h : x.Lowers y) (hx : x.marked) : y.marked := by
  intro mark standing
  have next : x.order.next ≠ 0 := fun zero => standing (Nat.le_zero.1 (zero ▸ h.next))
  rcases h.mode with dropped | ⟨-, -, zero⟩ | same
  · exact absurd dropped.2.1 standing
  · exact absurd zero standing
  · rcases h.mark with zero | unmoved
    · exact absurd zero standing
    · rw [same]
      exact hx (unmoved ▸ mark) next

/-- A tank in AUTO in force that is not IN_SERVICE holds no order, so that entry into TRIPPED leaves none. -/
theorem SlotTrip.tripOrders (h : SlotTrip x y) (limits : x.limits) :
    y.tripActive ∧ (x.tripNext → y.tripNext) := by
  cases h with
  | leave => exact ⟨fun h => by simp at h, fun _ h => by simp at h⟩
  | enter =>
    obtain ⟨active, next, -⟩ := x.write_order 0 0
    exact ⟨fun _ _ => active, fun _ _ _ => next⟩
  | pass other =>
    have idle : x.mode = some .auto → x.order.active = 0 ∧ x.order.next = 0 := by
      intro mode
      refine limits.2 fun ⟨t, ht, v, hv, _⟩ => ?_
      obtain ⟨u, hu, auto⟩ := Slot.mode_eq_some.1 mode
      obtain rfl := Option.some.inj (ht.symm.trans hu)
      exact other t ht (by simp [hv]) auto
    have same : ({ x with
        tank := x.tank.map fun t => t.mapService fun v => { v with spilling := v.spilling.restrict }
        tripped := true } : Slot).mode = x.mode := Slot.mode_of_map rfl fun _ => rfl
    exact ⟨fun _ mode => (idle (same.symm.trans mode)).1, fun _ _ mode => (idle (same.symm.trans mode)).2⟩

/-- A computation writes no order to a tank in AUTO in force while TRIPPED, and marks AUTO only what belongs to one (R128). -/
theorem SlotCompute.tripOrders (h : SlotCompute x y) (hx : x.tripActive) : y.tripActive ∧ y.tripNext ∧ y.marked := by
  cases h with
  | idle => exact ⟨hx, fun _ _ => rfl, fun _ standing => absurd rfl standing⟩
  | @served t v defined present n listed written eligible =>
    refine ⟨hx, fun tripped mode => ?_, fun mark standing => ?_⟩
    · obtain ⟨u, hu, auto⟩ := Slot.mode_eq_some.1 mode
      obtain rfl := Option.some.inj (defined.symm.trans hu)
      rcases written with zero | ⟨free, -⟩
      · exact zero
      · exact absurd auto (free tripped)
    · rcases written with zero | ⟨-, -, -, ⟨manual, -⟩ | ⟨-, auto, -⟩⟩
      · exact absurd zero standing
      · rw [Mode.mark_auto.1 mark] at manual
        exact Mode.noConfusion manual
      · exact Slot.mode_eq_some.2 ⟨t, defined, auto⟩

/-- A promotion puts no order in force on a tank in AUTO while TRIPPED: the next orders marked AUTO were in force as AUTO before. -/
theorem Slot.promote_tripActive (next : x.tripNext) (marked : x.marked) : x.promote.tripActive := by
  intro tripped mode
  obtain ⟨u, hu, auto⟩ := Slot.mode_eq_some.1 mode
  obtain ⟨t, ht, rfl⟩ := Option.map_eq_some_iff.1 hu
  rw [promote_order]
  rcases Slot.promoted_cases ht with zero | ⟨taken, -, agreed⟩
  · exact zero
  · by_contra standing
    have standing : x.order.next ≠ 0 := fun zero => standing (taken.trans zero)
    exact standing (next tripped (marked (agreed.trans (Mode.mark_auto.2 auto)) standing))

/-- What the trip law needs beside it. -/
structure Slot.TripLawful (x : Slot) : Prop where
  formed : x.formed
  limits : x.limits
  active : x.tripActive
  next : x.tripNext
  marked : x.marked

theorem SlotChange.tripLawful {lines : Vector Bool 4} {now : State} {computes : Prop} (h : SlotChange lines now computes x y) (hx : x.TripLawful) : y.TripLawful := by
  obtain ⟨formed, limits, active, next, marked⟩ := hx
  have formed' := h.formed formed
  have limits' := h.limits formed limits
  rcases h.cases with ⟨lowers, tripped⟩ | move | ⟨-, computed | ⟨z, moves, computed⟩⟩
  · exact ⟨formed', limits', lowers.tripActive tripped active, lowers.tripNext tripped next, lowers.marked marked⟩
  · obtain ⟨active', next'⟩ := move.tripOrders limits
    exact ⟨formed', limits', active', next' next, move.lowers.marked marked⟩
  · obtain ⟨active', next', marked'⟩ := computed.tripOrders active
    exact ⟨formed', limits', active', next', marked'⟩
  · obtain ⟨-, -, moved⟩ := SlotTrip.chain (P := fun x => x.formed ∧ x.limits ∧ x.tripActive)
      (fun move h => ⟨move.formed h.1, move.limits h.1 h.2.1, (move.tripOrders h.2.1).1⟩) moves
      ⟨x.promote_formed formed, x.promote_limits formed limits, x.promote_tripActive next marked⟩
    obtain ⟨active', next', marked'⟩ := computed.tripOrders moved
    exact ⟨formed', limits', active', next', marked'⟩

end

/-- Settles O54, slot change by slot change, with the limits of the orders and the op states beside the two laws. -/
theorem tripLawKept : Obligations.TripLawKept := by
  intro s t formed limits marks trip h
  rw [opStatesFormed_iff] at formed
  rw [ordersWithinLimits_iff] at limits
  rw [autoMarksInForce_iff] at marks
  rw [tripHoldsOrders_iff] at trip
  have lawful : ∀ i, (t.slot i).TripLawful :=
    (Kept.of_slots (P := Slot.TripLawful) fun change => change.tripLawful).step h
      fun i => ⟨formed i, limits i, (trip i).1, (trip i).2, marks i⟩
  exact ⟨(tripHoldsOrders_iff t).2 fun i => ⟨(lawful i).active, (lawful i).next⟩,
    (autoMarksInForce_iff t).2 fun i => (lawful i).marked⟩

/-! ### The run order list (R117) -/

section
variable {x y : Slot}

/-- A slot of the list may hold orders and is in AUTO in force. -/
def Slot.listLaw (x : Slot) : Prop :=
  x.listed = true → x.mayHold ∧ x.mode = some .auto

theorem Slot.Lowers.listLaw (h : x.Lowers y) (hold : x.mayHold → y.mayHold ∨ y.dropped) (hx : x.listLaw) : y.listLaw := by
  intro listed
  obtain ⟨may, auto⟩ := hx (h.listed listed)
  have standing : ¬y.dropped := fun dropped => by
    obtain ⟨-, -, gone⟩ := dropped
    simp [gone] at listed
  refine ⟨(hold may).resolve_right standing, ?_⟩
  rcases h.mode with dropped | ⟨idle, -⟩ | same
  · exact absurd dropped standing
  · exact absurd may idle
  · rw [same, auto]

/-- The list of a computation holds only eligible tanks (R112, R115). -/
theorem SlotCompute.listLaw (h : SlotCompute x y) : y.listLaw := by
  intro listed
  cases h with
  | idle => simp at listed
  | @served t v defined present n on written eligible =>
    obtain ⟨auto, op, free⟩ := eligible listed
    exact ⟨⟨t, defined, v, present, op, free⟩, Slot.mode_eq_some.2 ⟨t, defined, auto⟩⟩

theorem SlotChange.listLaw {lines : Vector Bool 4} {now : State} {computes : Prop} (h : SlotChange lines now computes x y) (formed : x.formed) (hx : x.listLaw) :
    y.listLaw := by
  rcases h.cases with ⟨lowers, -⟩ | move | ⟨-, computed | ⟨z, -, computed⟩⟩
  · exact lowers.listLaw (h.mayHold formed) hx
  · exact move.lowers.listLaw (h.mayHold formed) hx
  · exact computed.listLaw
  · exact computed.listLaw

end

@[simp] theorem stopAllocator_alloc (s : State) : (stopAllocator s).alloc =
    { s.alloc with running := false, periodTimer := none, runOrder := [], overrun := false } := rfl

@[simp] theorem clearBlocks_alloc (s : State) : (clearBlocks s).alloc =
    { s.alloc with running := false, periodTimer := none, runOrder := [], overrun := false } := by
  simp [clearBlocks, clearCatchments, clearGauges]

/-- A computation leaves a grant order as the list. -/
theorem Computes.runOrder {s t : State} (h : Computes s t) : ∃ u : State, t.alloc.runOrder = u.grantOrder := by
  cases h with
  | start =>
    refine ⟨{ s with alloc := { s.alloc with running := true } }, ?_⟩
    rw [State.startPeriod_alloc, computation_alloc]
  | compute => exact ⟨s, computation_runOrder s⟩
  | promote => exact ⟨promotion s, computation_runOrder (promotion s)⟩

/-- An event that does not compute leaves a part of the run order list. -/
theorem Event.runOrder {s t : State} (h : Event s t) : t.alloc.runOrder.Sublist s.alloc.runOrder ∨ Computes s t := by
  cases h with
  | reset => exact .inl (List.nil_sublist _)
  | stop | clearBlocks => exact .inl (by simp)
  | computes now => exact .inr now
  | zinh => exact .inl (by simp [zinhEvent, State.formInhibits])
  | setInhibit => exact .inl (by simp [State.formInhibits])
  | takeOffline | lost => exact .inl (by simp)
  | stalls => exact .inl (by simp [stallStage])
  | trip move => exact .inl (by rw [move.alloc])
  | talked | lineInReset | release | capSel | intake | mask | collect | clearNotices | readOrders | storeBank | restartPeriod | extend
    | startHold | moveHold | override | endHold => exact .inl (List.Sublist.refl _)
  | evaluate => exact .inl (by simp [evaluateAll])
  | storeSelectedBank | settle => exact .inl (by simp [State.storeBank, State.selectObserved])
  | _ => exact .inl (by simp)

/-- No tank stands in the list twice. -/
theorem runOrder_nodup_kept : Kept fun s => s.alloc.runOrder.Nodup where
  event h nodup := by
    rcases h.runOrder with part | now
    · exact nodup.sublist part
    · obtain ⟨u, eq⟩ := now.runOrder
      rw [eq]
      exact u.grantOrder_nodup
  count _ _ nodup := nodup

theorem runListLawful_iff (s : State) : RunListLawful s ↔ s.alloc.runOrder.Nodup ∧ ∀ i, (s.slot i).listLaw := by
  refine and_congr Iff.rfl (forall_congr' fun i => ?_)
  rw [mayHoldOrders_iff, State.autoActive_iff, ← List.contains_iff_mem]
  rfl

/-- Settles O55: the list is lawful slot change by slot change, with the op states formed beside it, and an event leaves a part of
it or a grant order. -/
theorem runListStaysLawful : Obligations.RunListStaysLawful := by
  intro s t formed lawful h
  rw [opStatesFormed_iff] at formed
  rw [runListLawful_iff] at lawful ⊢
  obtain ⟨nodup, listed⟩ := lawful
  have slots := (Kept.of_slots (P := fun x => x.formed ∧ x.listLaw)
    fun change hx => ⟨change.formed hx.1, change.listLaw hx.1 hx.2⟩).step h fun i => ⟨formed i, listed i⟩
  exact ⟨runOrder_nodup_kept.step h nodup, fun i => (slots i).2⟩

end Sys2Proof.Machine
end

section
/-! PROOFS. The budget law (R120, R121): in both buffers the automatic orders fit into B less the manual ones. An event that does not
compute lowers every order; a computation grants out of what is left over M; a fall of B sheds. -/

namespace Sys2Proof.Machine

/-! ### The sums of the orders -/

theorem sumTanks_mono {f g : Fin 32 → Nat} (h : ∀ i, f i ≤ g i) : sumTanks f ≤ sumTanks g := by
  rw [sumTanks_eq, sumTanks_eq]
  exact Finset.sum_le_sum fun i _ => h i

/-- The active order at a slot, counted for a mode in force. -/
def Slot.activeOf (m : Mode) (x : Slot) : Nat :=
  if x.mode = some m then x.order.active else 0

/-- The next order at a slot, counted for a mark. -/
def Slot.nextOf (m : Mode) (x : Slot) : Nat :=
  if x.order.mark = m.mark then x.order.next else 0

/-- The sum of the active orders of one mode in force. -/
@[irreducible] def State.actives (s : State) (m : Mode) : Nat :=
  sumTanks fun i => (s.slot i).activeOf m

/-- The sum of the next orders of one mark. -/
@[irreducible] def State.nexts (s : State) (m : Mode) : Nat :=
  sumTanks fun i => (s.slot i).nextOf m

/-- The sums read the slots. -/
theorem State.sums_congr {s t : State} (h : ∀ i, t.slot i = s.slot i) : t.actives = s.actives ∧ t.nexts = s.nexts := by
  constructor <;> funext m
  · simp only [actives, h]
  · simp only [nexts, h]

/-- The automatic active orders fit into a budget less the manual ones (R120). -/
def State.ActivesFit (b : Nat) (s : State) : Prop :=
  s.actives .auto ≤ b - s.actives .manual

/-- The automatic next orders fit into a budget less the manual ones (R121). -/
def State.NextsFit (b : Nat) (s : State) : Prop :=
  s.nexts .auto ≤ b - s.nexts .manual

theorem State.manualActive_iff (s : State) (i : Fin 32) : s.manualActive i = true ↔ (s.slot i).mode = some .manual := by
  rw [manualActive]
  cases ht : s.tanks[i] with
  | none => simp [State.tankIs_undefined ht, Slot.mode, State.slot, ht]
  | some t => simp [State.tankIs_of ht, Slot.mode, State.slot, ht]

theorem activeSum_auto (s : State) : activeSum s s.autoActive = s.actives .auto := by
  rw [activeSum, State.actives]
  refine congrArg sumTanks (funext fun i => ?_)
  simp only [Slot.activeOf, State.autoActive_iff]
  rfl

theorem activeSum_manual (s : State) : activeSum s s.manualActive = s.actives .manual := by
  rw [activeSum, State.actives]
  refine congrArg sumTanks (funext fun i => ?_)
  simp only [Slot.activeOf, State.manualActive_iff]
  rfl

theorem nextSum_auto (s : State) : nextSum s s.autoNext = s.nexts .auto := by
  rw [nextSum, State.nexts]
  refine congrArg sumTanks (funext fun i => ?_)
  simp only [Slot.nextOf, State.autoNext, beq_iff_eq]
  rfl

theorem nextSum_manual (s : State) : nextSum s s.manualNext = s.nexts .manual := by
  rw [nextSum, State.nexts]
  refine congrArg sumTanks (funext fun i => ?_)
  simp only [Slot.nextOf, State.manualNext, beq_iff_eq]
  rfl

theorem ordersWithinBudget_iff (s : State) :
    OrdersWithinBudget s ↔ s.ActivesFit s.alloc.budget ∧ s.NextsFit s.alloc.budget := by
  rw [OrdersWithinBudget, activeSum_auto, activeSum_manual, nextSum_auto, nextSum_manual]
  rfl

section
variable {s t : State} {b c : Nat}

theorem State.ActivesFit.mono (h : s.ActivesFit b) (budget : b ≤ c) (lower : ∀ m, t.actives m ≤ s.actives m) :
    t.ActivesFit c := by
  have auto := lower .auto
  have manual := lower .manual
  rw [ActivesFit] at h ⊢
  omega

theorem State.NextsFit.mono (h : s.NextsFit b) (budget : b ≤ c) (lower : ∀ m, t.nexts m ≤ s.nexts m) : t.NextsFit c := by
  have auto := lower .auto
  have manual := lower .manual
  rw [NextsFit] at h ⊢
  omega

/-- No order stands at any slot. -/
def State.ordersZero (s : State) : Prop :=
  ∀ i, (s.slot i).order.active = 0 ∧ (s.slot i).order.next = 0

theorem State.ordersZero.fit (h : s.ordersZero) (b : Nat) : s.ActivesFit b ∧ s.NextsFit b := by
  have actives : s.actives .auto = 0 := by
    rw [State.actives]
    exact sumTanks_zero _ fun i => by simp [Slot.activeOf, (h i).1]
  have nexts : s.nexts .auto = 0 := by
    rw [State.nexts]
    exact sumTanks_zero _ fun i => by simp [Slot.nextOf, (h i).2]
  exact ⟨actives.le.trans (Nat.zero_le _), nexts.le.trans (Nat.zero_le _)⟩

end

/-! ### Events that do not compute -/

section
variable {x y : Slot}

theorem Slot.Lowers.activeOf (h : x.Lowers y) (m : Mode) : y.activeOf m ≤ x.activeOf m := by
  rw [Slot.activeOf, Slot.activeOf]
  rcases h.mode with ⟨zero, -⟩ | ⟨-, zero, -⟩ | same
  · simp [zero]
  · simp [zero]
  · rw [same]
    split
    · exact h.active
    · exact le_rfl

theorem Slot.Lowers.nextOf (h : x.Lowers y) (m : Mode) : y.nextOf m ≤ x.nextOf m := by
  rw [Slot.nextOf, Slot.nextOf]
  rcases h.mark with zero | same
  · simp [zero]
  · rw [same]
    split
    · exact h.next
    · exact le_rfl

/-- No order of any mode is larger in the second slot. -/
structure Slot.AtMost (x y : Slot) : Prop where
  active : y.order.active ≤ x.order.active
  next : y.order.next ≤ x.order.next
  activeOf : ∀ m, y.activeOf m ≤ x.activeOf m
  nextOf : ∀ m, y.nextOf m ≤ x.nextOf m

theorem Slot.AtMost.refl (x : Slot) : x.AtMost x :=
  ⟨le_rfl, le_rfl, fun _ => le_rfl, fun _ => le_rfl⟩

theorem Slot.AtMost.trans {z : Slot} (h : x.AtMost y) (h' : y.AtMost z) : x.AtMost z :=
  ⟨h'.active.trans h.active, h'.next.trans h.next, fun m => (h'.activeOf m).trans (h.activeOf m),
    fun m => (h'.nextOf m).trans (h.nextOf m)⟩

theorem Slot.Lowers.atMost (h : x.Lowers y) : x.AtMost y :=
  ⟨h.active, h.next, h.activeOf, h.nextOf⟩

theorem SlotTrips.atMost (h : Relation.ReflTransGen SlotTrip x y) : x.AtMost y := by
  induction h with
  | refl => exact .refl x
  | tail _ move ih => exact ih.trans move.lowers.atMost

/-- Without a computation no order rises along a chain of changes. -/
theorem SlotChanges.atMost {lines : Vector Bool 4} {now : State} {computes : Prop} (h : SlotChanges lines now computes x y) (free : ¬computes) :
    x.AtMost y := by
  induction h with
  | refl => exact .refl x
  | tail _ change ih =>
    rcases change.cases with ⟨lowers, -⟩ | move | ⟨now, -⟩
    · exact ih.trans lowers.atMost
    · exact ih.trans move.lowers.atMost
    · exact absurd now free

/-- An event that does not compute raises no order. -/
theorem Event.atMost {s t : State} (h : Event s t) (free : ¬Computes s t) (i : Fin 32) : (s.slot i).AtMost (t.slot i) :=
  (h.slot i).atMost free

theorem State.actives_le {s t : State} (h : ∀ i, (s.slot i).AtMost (t.slot i)) (m : Mode) : t.actives m ≤ s.actives m := by
  rw [actives, actives]
  exact sumTanks_mono fun i => (h i).activeOf m

theorem State.nexts_le {s t : State} (h : ∀ i, (s.slot i).AtMost (t.slot i)) (m : Mode) : t.nexts m ≤ s.nexts m := by
  rw [nexts, nexts]
  exact sumTanks_mono fun i => (h i).nextOf m

theorem State.ordersZero.of_atMost {s t : State} (h : ∀ i, (s.slot i).AtMost (t.slot i)) (zero : s.ordersZero) : t.ordersZero :=
  fun i => ⟨Nat.le_zero.1 ((h i).active.trans (zero i).1.le), Nat.le_zero.1 ((h i).next.trans (zero i).2.le)⟩

end

/-! ### Computations -/

section
variable (s : State) (i : Fin 32)

theorem computation_actives (m : Mode) : (computation s).actives m = s.actives m := by
  rw [State.actives, State.actives]
  refine congrArg sumTanks (funext fun i => ?_)
  have mode : ((computation s).slot i).mode = (s.slot i).mode := by rw [computation_slot_eq]; rfl
  have active : ((computation s).slot i).order.active = (s.slot i).order.active := by
    rw [computation_slot_eq, State.computedEntry]
    split <;> rfl
  rw [Slot.activeOf, Slot.activeOf, mode, active]

/-- The automatic next orders written are the grants, and the manual ones the granted manual values (R111, R116). -/
theorem computation_nextOf : ((computation s).slot i).nextOf .auto ≤ s.grants[i] ∧
    ((computation s).slot i).nextOf .manual ≤ s.manualOrder i := by
  rw [computation_slot_eq]
  cases present : s.serviceAt i with
  | none =>
    rw [State.computedEntry_idle present]
    exact ⟨Nat.zero_le _, Nat.zero_le _⟩
  | some p =>
    rw [State.computedEntry_served present]
    simp only [Slot.nextOf, State.writtenOrder]
    cases p.1.pendingMode.mode with
    | auto => simp only [Mode.mark, reduceCtorEq, if_true, if_false]; split_ifs <;> simp
    | manual => simp only [Mode.mark, reduceCtorEq, if_true, if_false]; split_ifs <;> simp

theorem availableBudget_le : availableBudget s ≤ s.alloc.budget := by
  rw [availableBudget]
  split_ifs
  · exact Nat.zero_le _
  · exact Nat.min_le_left _ _
  · exact le_rfl

/-- What a computation writes fits into B (R110, R111, R116). -/
theorem computation_nextsFit : (computation s).NextsFit s.alloc.budget := by
  obtain ⟨sum, -⟩ := s.grantWalk_spec s.grantOrder (availableBudget s - s.manualTotal) s.grantOrder_nodup
  have auto : (computation s).nexts .auto ≤ sumTanks fun i => s.grants[i] := by
    rw [State.nexts]
    exact sumTanks_mono fun i => (computation_nextOf s i).1
  have manual : (computation s).nexts .manual ≤ s.manualTotal := by
    rw [State.nexts]
    exact sumTanks_mono fun i => (computation_nextOf s i).2
  have available := availableBudget_le s
  simp only [State.grants] at auto
  rw [State.NextsFit]
  omega

/-- A promotion puts in force, for each mode, next orders of that mark (R129). -/
theorem Slot.promote_activeOf (x : Slot) (m : Mode) : x.promote.activeOf m ≤ x.nextOf m := by
  rw [activeOf]
  split
  · next force =>
    obtain ⟨u, hu, mode⟩ := Slot.mode_eq_some.1 force
    obtain ⟨t, ht, rfl⟩ := Option.map_eq_some_iff.1 hu
    rw [promote_order]
    rcases Slot.promoted_cases ht with zero | ⟨next, -, agreed⟩
    · simp [zero]
    · have marked : x.order.mark = m.mark := agreed.trans (congrArg Mode.mark mode)
      rw [nextOf, if_pos marked]
      exact next.le
  · exact Nat.zero_le _

theorem promotion_actives (m : Mode) : (promotion s).actives m ≤ s.nexts m := by
  rw [State.actives, State.nexts]
  refine sumTanks_mono fun i => ?_
  have moves := (promotion_moves s).slot i
  rw [promoteOrders_slot] at moves
  exact ((SlotTrips.atMost moves).activeOf m).trans ((s.slot i).promote_activeOf m)

end

/-- A computation of a state whose active orders fit leaves orders that fit. -/
theorem computation_fit {s : State} (actives : s.ActivesFit s.alloc.budget) :
    (computation s).ActivesFit (computation s).alloc.budget ∧ (computation s).NextsFit (computation s).alloc.budget := by
  rw [computation_alloc]
  exact ⟨actives.mono le_rfl fun m => (computation_actives s m).le, computation_nextsFit s⟩

theorem startPeriod_fit {s : State} (h : s.ActivesFit s.alloc.budget ∧ s.NextsFit s.alloc.budget) :
    s.startPeriod.ActivesFit s.startPeriod.alloc.budget ∧ s.startPeriod.NextsFit s.startPeriod.alloc.budget := by
  obtain ⟨actives, nexts⟩ := State.sums_congr s.startPeriod_slot
  rwa [State.ActivesFit, State.NextsFit, actives, nexts, State.startPeriod_alloc]

/-- The event of a computation leaves orders that fit. -/
theorem Computes.fit {s t : State} (h : Computes s t) (actives : s.ActivesFit s.alloc.budget)
    (nexts : s.NextsFit s.alloc.budget) : t.ActivesFit t.alloc.budget ∧ t.NextsFit t.alloc.budget := by
  cases h with
  | start =>
    obtain ⟨same, -⟩ := State.sums_congr (s := s) (t := { s with alloc := { s.alloc with running := true } }) fun i => rfl
    refine startPeriod_fit (computation_fit ?_)
    rwa [State.ActivesFit, same]
  | compute => exact computation_fit actives
  | promote =>
    have budget : (promotion s).alloc.budget = s.alloc.budget := by rw [promotion_alloc]
    have moved : (promotion s).ActivesFit s.alloc.budget := by
      have auto := promotion_actives s .auto
      have manual := promotion_actives s .manual
      rw [State.NextsFit] at nexts
      rw [State.ActivesFit]
      omega
    exact computation_fit (by rwa [budget])

/-- A computation is made by a RUNNING Allocator of the released part. -/
theorem Computes.running {s t : State} (h : Computes s t) (reset : s.resetAsserted = true → s.alloc.running = false) :
    t.alloc.running = true ∧ t.resetAsserted = false := by
  have awake (running : s.alloc.running = true) : s.resetAsserted = false := by
    rw [← Bool.not_eq_true]
    intro held
    simp [reset held] at running
  cases h with
  | start released =>
    rw [State.startPeriod_alloc, State.startPeriod_resetAsserted, computation_alloc, computation_resetAsserted]
    exact ⟨rfl, released⟩
  | compute running =>
    rw [computation_alloc, computation_resetAsserted]
    exact ⟨running, awake running⟩
  | promote running =>
    rw [computation_alloc, computation_resetAsserted, promotion_alloc, promotion_resetAsserted]
    exact ⟨running, awake running⟩

/-! ### Shed -/

/-- A walk of a shed leaves automatic amounts that fit into B less the manual ones: it visits every automatic amount above 0, and
ends with an excess only where it has cut all of them to 0 (R120, R121). -/
theorem shedWalk_fits (s : State) (automatic manual : Fin 32 → Bool) (amount : Fin 32 → Nat) :
    (sumTanks fun i => if automatic i then (shedWalk s automatic manual amount).amounts[i] else 0) ≤
      s.alloc.budget - sumTanks fun i => if manual i then amount i else 0 := by
  have auto : ∀ j ∈ shedOrder automatic amount s.alloc.runOrder, automatic j = true := by
    intro j hj
    simp only [shedOrder, List.mem_append, List.mem_filter, Bool.and_eq_true] at hj
    rcases hj with ⟨-, ⟨h, -⟩, -⟩ | ⟨-, h⟩ <;> exact h
  have visited : ∀ j, automatic j = true → amount j ≠ 0 → j ∈ shedOrder automatic amount s.alloc.runOrder := by
    intro j automatic standing
    by_cases listed : j ∈ s.alloc.runOrder
    · simp [shedOrder, automatic, listed]
    · simp [shedOrder, automatic, standing, listed]
  obtain ⟨r, walk, sum, other, -, full, -⟩ := shedFold_spec s.rMinAt
    (s.alloc.budget - sumTanks fun j => if manual j then amount j else 0) automatic (shedOrder automatic amount s.alloc.runOrder)
    { amounts := Vector.ofFn amount, account := sumTanks fun j => if automatic j then amount j else 0 } auto (by simp)
  have same : shedWalk s automatic manual amount = r := walk.symm
  rw [same, ← sum]
  by_contra excess
  have empty : r.account = 0 := by
    rw [sum]
    refine sumTanks_zero _ fun i => ?_
    split
    · next counted =>
      by_cases listed : i ∈ shedOrder automatic amount s.alloc.runOrder
      · exact full (Nat.lt_of_not_le excess) i listed
      · rw [other i listed]
        by_contra standing
        exact listed (visited i counted (by simpa using standing))
    · rfl
  omega

/-- A shed leaves orders that fit into B. -/
theorem shed_fit (s : State) : (shed s).ActivesFit s.alloc.budget ∧ (shed s).NextsFit s.alloc.budget := by
  have lower : ∀ i, (s.slot i).AtMost ((shed s).slot i) := fun i => (shed_slot s i s.pins.zinh s False).atMost id
  have mode : ∀ i, ((shed s).slot i).mode = (s.slot i).mode := fun i => by
    rw [shed_slot_eq]
    exact Slot.mode_of_map rfl fun _ => rfl
  have order : ∀ i, ((shed s).slot i).order.active = (shedActive s)[i] ∧ ((shed s).slot i).order.next = (shedNext s)[i] ∧
      ((shed s).slot i).order.mark = (s.slot i).order.mark := fun i => by
    rw [shed_slot_eq]
    exact (s.slot i).write_order _ _
  constructor
  · have auto : (shed s).actives .auto = sumTanks fun i => if s.autoActive i then (shedActive s)[i] else 0 := by
      rw [State.actives]
      simp only [Slot.activeOf, mode, order, State.autoActive_iff]
    have fit := shedWalk_fits s s.autoActive s.manualActive fun i => s.orders[i].active
    rw [← shedActive] at fit
    have manual := State.actives_le lower .manual
    rw [← activeSum_manual s, activeSum] at manual
    rw [State.ActivesFit, auto]
    omega
  · have auto : (shed s).nexts .auto = sumTanks fun i => if s.autoNext i then (shedNext s)[i] else 0 := by
      rw [State.nexts]
      simp only [Slot.nextOf, order, State.autoNext, beq_iff_eq]
      rfl
    have fit := shedWalk_fits s s.autoNext s.manualNext fun i => s.orders[i].next
    rw [← shedNext] at fit
    have manual := State.nexts_le lower .manual
    rw [← nextSum_manual s, nextSum] at manual
    rw [State.NextsFit, auto]
    omega

/-- A new B leaves orders that fit: a fall sheds while RUNNING, and while STOPPED there is no order. -/
theorem setBudget_fit {s : State} (b : Nat) (actives : s.ActivesFit s.alloc.budget) (nexts : s.NextsFit s.alloc.budget)
    (stopped : s.alloc.running = false → s.ordersZero) : (setBudget b s).ActivesFit b ∧ (setBudget b s).NextsFit b := by
  rw [setBudget_eq]
  split
  · exact shed_fit (s.putBudget b)
  · next stays =>
    obtain ⟨same, same'⟩ := State.sums_congr (s := s) (t := s.putBudget b) fun i => rfl
    rw [State.ActivesFit, State.NextsFit, same, same']
    by_cases running : s.alloc.running = true
    · have rises : s.alloc.budget ≤ b := by
        by_contra falls
        exact stays ⟨running, by omega⟩
      exact ⟨actives.mono rises fun _ => le_rfl, nexts.mono rises fun _ => le_rfl⟩
    · exact (stopped (by simpa using running)).fit b

/-! ### All events -/

/-- While STOPPED the list is empty and no order stands, and the part in reset is STOPPED (R106, R120, R124). -/
theorem stoppedHoldsNothing_iff (s : State) : StoppedHoldsNothing s ↔
    (s.alloc.running = false → s.alloc.runOrder = [] ∧ s.ordersZero) ∧ (s.resetAsserted = true → s.alloc.running = false) :=
  Iff.rfl

/-- What an event does to the state of the Allocator: it stands, the event computes, or everything is dropped. -/
theorem Event.running {s t : State} (h : Event s t) :
    t.alloc.running = s.alloc.running ∧ (t.resetAsserted = true → s.resetAsserted = true) ∨ Computes s t ∨
      t.alloc.running = false ∧ t.alloc.runOrder = [] ∧ t.ordersZero := by
  cases h with
  | computes now => exact .inr (.inl now)
  | reset => exact .inr (.inr ⟨rfl, rfl, fun i => by simp [State.slot, resetState, State.held, OrderEntry.zero]⟩)
  | stop =>
    refine .inr (.inr ⟨rfl, rfl, fun i => ?_⟩)
    rw [stopAllocator_slot, State.zeroOrders_slot, if_pos rfl]
    exact ⟨((s.slot i).write_order 0 0).1, ((s.slot i).write_order 0 0).2.1⟩
  | clearBlocks =>
    refine .inr (.inr ⟨by rw [clearBlocks_alloc], by rw [clearBlocks_alloc], fun i => ?_⟩)
    rw [clearBlocks_slot]
    exact ⟨((s.slot i).write_order 0 0).1, ((s.slot i).write_order 0 0).2.1⟩
  | trip move => exact .inl ⟨by rw [move.alloc], by rw [move.resetAsserted]; exact id⟩
  | talked | lineInReset | capSel | intake | mask | collect | clearNotices | readOrders | storeBank | restartPeriod | extend | startHold
    | moveHold | override | endHold => exact .inl ⟨rfl, id⟩
  | release => exact .inl ⟨rfl, fun h => by simp [takeLines] at h⟩
  | evaluate => exact .inl ⟨by simp [evaluateAll], by simp [evaluateAll]⟩
  | storeSelectedBank | settle =>
    exact .inl ⟨by simp [State.storeBank, State.selectObserved], by simp [State.storeBank, State.selectObserved]⟩
  | zinh | setInhibit => exact .inl ⟨by simp [zinhEvent, State.formInhibits], by simp [zinhEvent, State.formInhibits]⟩
  | stalls => exact .inl ⟨by simp [stallStage], by simp⟩
  | _ => exact .inl ⟨by simp, by simp⟩

/-- What an event does to B: it stands or is set, but in reset. -/
theorem Event.budget {s t : State} (h : Event s t) : t.alloc.budget = s.alloc.budget ∨
    (∃ (b : Nat) (u : State), t = setBudget b u ∧ u.slot = s.slot ∧ u.alloc.budget = s.alloc.budget ∧
      u.alloc.running = s.alloc.running) ∨ s.resetAsserted = true ∨ t.ordersZero := by
  cases h with
  | reset => exact .inr (.inr (.inr fun i => by simp [State.slot, resetState, State.held, OrderEntry.zero]))
  | release reset => exact .inr (.inr (.inl reset))
  | storeSelectedBank b => exact .inr (.inl ⟨b, s.storeBank s.alloc.selected b, rfl, rfl, rfl, rfl⟩)
  | settle => exact .inr (.inl ⟨_, s.selectObserved, rfl, rfl, rfl, rfl⟩)
  | computes now =>
    cases now with
    | start => exact .inl (by rw [State.startPeriod_alloc, computation_alloc])
    | compute => exact .inl (by rw [computation_alloc])
    | promote => exact .inl (by rw [computation_alloc, promotion_alloc])
  | stop | clearBlocks => exact .inl (by simp)
  | trip move => exact .inl (by rw [move.alloc])
  | talked | lineInReset | capSel | intake | mask | collect | clearNotices | readOrders | storeBank | restartPeriod | extend | startHold
    | moveHold | override | endHold => exact .inl rfl
  | evaluate => exact .inl (by simp [evaluateAll])
  | zinh | setInhibit => exact .inl (by simp [zinhEvent, State.formInhibits])
  | stalls => exact .inl (by simp [stallStage])
  | _ => exact .inl (by simp)

/-- Every event keeps the law of the STOPPED Allocator. -/
theorem Event.stopped {s t : State} (h : Event s t) (hs : StoppedHoldsNothing s) : StoppedHoldsNothing t := by
  rw [stoppedHoldsNothing_iff] at hs ⊢
  obtain ⟨idle, reset⟩ := hs
  by_cases now : Computes s t
  · obtain ⟨running, released⟩ := now.running reset
    simp [running, released]
  · rcases h.running with ⟨running, asserted⟩ | now' | ⟨stopped, empty, zero⟩
    · rw [running]
      refine ⟨fun stopped => ?_, fun held => reset (asserted held)⟩
      obtain ⟨empty, zero⟩ := idle stopped
      have list := h.runOrder.resolve_right now
      exact ⟨List.sublist_nil.1 (empty ▸ list), zero.of_atMost (h.atMost now)⟩
    · exact absurd now' now
    · exact ⟨fun _ => ⟨empty, zero⟩, fun _ => stopped⟩

/-- Every event keeps the budget law, given the law of the STOPPED Allocator. -/
theorem Event.withinBudget {s t : State} (h : Event s t) (hs : StoppedHoldsNothing s)
    (fit : s.ActivesFit s.alloc.budget ∧ s.NextsFit s.alloc.budget) :
    t.ActivesFit t.alloc.budget ∧ t.NextsFit t.alloc.budget := by
  obtain ⟨idle, reset⟩ := (stoppedHoldsNothing_iff s).1 hs
  obtain ⟨actives, nexts⟩ := fit
  by_cases now : Computes s t
  · exact now.fit actives nexts
  · have lower := h.atMost now
    rcases h.budget with same | ⟨b, u, rfl, slots, budget, running⟩ | held | zero
    · rw [same]
      exact ⟨actives.mono le_rfl (State.actives_le lower), nexts.mono le_rfl (State.nexts_le lower)⟩
    · have sums : u.actives = s.actives ∧ u.nexts = s.nexts := State.sums_congr fun i => congrFun slots i
      rw [setBudget_alloc]
      refine setBudget_fit b ?_ ?_ fun stopped => ?_
      · rwa [State.ActivesFit, sums.1, budget]
      · rwa [State.NextsFit, sums.2, budget]
      · rw [State.ordersZero, slots]
        exact (idle (running ▸ stopped)).2
    · exact (((idle (reset held)).2).of_atMost lower).fit _
    · exact zero.fit _

/-- Settles O56, event by event, the budget law and the law of the STOPPED Allocator together. -/
theorem ordersStayWithinBudget : Obligations.OrdersStayWithinBudget := by
  intro s t stopped budget h
  rw [ordersWithinBudget_iff] at budget ⊢
  have kept : Kept fun s => (s.ActivesFit s.alloc.budget ∧ s.NextsFit s.alloc.budget) ∧ StoppedHoldsNothing s :=
    { event := fun e hs => ⟨e.withinBudget hs.2 hs.1, e.stopped hs.2⟩, count := fun s n hs => by
        obtain ⟨same, same'⟩ := State.sums_congr (s := s) (t := { s with ds := n }) fun i => rfl
        rwa [State.ActivesFit, State.NextsFit, same, same'] }
  exact kept.step h ⟨budget, stopped⟩

end Sys2Proof.Machine
end

section
/-! PROOFS. What an event does to each of the other records: a gauge, a catchment, the Alert Unit, the Allocator and the Intake Guard. Each
is one of a few listed changes, so that a law of such a record is proved change by change. -/

namespace Sys2Proof.Machine

/-! ### Gauges -/

/-- One change of the record at a gauge index, at this count. -/
inductive GaugeChange (ds : Nat) : Option Gauge → Option Gauge → Prop
  | same (g : Option Gauge) : GaugeChange ds g g
  | gone (g : Option Gauge) : GaugeChange ds g none
  | fresh {depth debounce dryGap : Nat} (ok : gaugeValuesOk depth debounce dryGap = true) (g : Option Gauge) :
      GaugeChange ds g (some (Gauge.fresh depth debounce dryGap))
  | redefined {depth debounce dryGap : Nat} (ok : gaugeValuesOk depth debounce dryGap = true) (g : Gauge) :
      GaugeChange ds (some g) (some { g with depthPerTip := depth, debounce := debounce, dryGap := dryGap })
  | tip (g : Gauge) : GaugeChange ds (some g) (some (g.tip ds))
  | endStorm (g : Gauge) : GaugeChange ds (some g) (some g.endStorm)

theorem GaugeChange.of_eq {ds : Nat} {g h : Option Gauge} (e : h = g) : GaugeChange ds g h := by
  rw [e]
  exact .same g

theorem GaugeChange.of_gauges {s t : State} {ds : Nat} (h : t.gauges = s.gauges) (j : Fin 12) :
    GaugeChange ds s.gauges[j] t.gauges[j] := by
  rw [h]
  exact .same _

theorem State.setGauge_gauges_self (s : State) (k : Fin 12) (g : Option Gauge) : (s.setGauge k g).gauges[k] = g := by simp

theorem State.setGauge_gauges_of_ne (s : State) {j k : Fin 12} (h : j ≠ k) (g : Option Gauge) :
    (s.setGauge k g).gauges[j] = s.gauges[j] := by
  have : k.val ≠ j.val := fun e => h (Fin.ext e.symm)
  simp [this]

/-- A gauge's record written, and the records beside it. -/
theorem State.setGauge_change (s : State) {j k : Fin 12} {g : Option Gauge} {ds : Nat} (h : GaugeChange ds s.gauges[k] g) :
    GaugeChange ds s.gauges[j] (s.setGauge k g).gauges[j] := by
  by_cases hj : j = k
  · subst hj
    rwa [State.setGauge_gauges_self]
  · exact .of_eq (s.setGauge_gauges_of_ne hj g)

theorem clearBlocks_gauges (s : State) : (clearBlocks s).gauges = s.gauges.map fun g => g.map Gauge.endStorm := by
  simp [clearBlocks, clearCatchments, clearGauges]

theorem Event.gauge {s t : State} (h : Event s t) (j : Fin 12) : GaugeChange s.ds s.gauges[j] t.gauges[j] := by
  cases h with
  | reset =>
    have gone : (resetState s).gauges[j] = none := by simp [resetState, State.held]
    rw [gone]
    exact .gone _
  | defineGauge ok undefined => exact s.setGauge_change (.fresh ok _)
  | redefineGauge ok defined => exact s.setGauge_change (defined ▸ .redefined ok _)
  | retireGauge => exact s.setGauge_change (.gone _)
  | tip defined => exact s.setGauge_change (defined ▸ .tip _)
  | endStorm defined => exact s.setGauge_change (defined ▸ .endStorm _)
  | clearBlocks =>
    have cleared : (Machine.clearBlocks s).gauges[j] = (s.gauges[j]).map Gauge.endStorm := by simp [clearBlocks_gauges]
    rw [cleared]
    cases s.gauges[j] with
    | none => exact .same none
    | some g => exact .endStorm g
  | trip move => exact .of_gauges move.gauges j
  | computes now =>
    cases now with
    | start | compute | promote => exact .of_gauges (by simp) j
  | zinh | setInhibit | stalls => exact .of_gauges (by simp [State.formInhibits]) j
  | talked | lineInReset | release | capSel | intake | mask | collect | clearNotices | readOrders | storeBank | restartPeriod | extend
    | startHold | moveHold | override | endHold => exact .same _
  | _ => exact .of_gauges (by simp) j

/-! ### Catchments -/

/-- One change of the record at a catchment index, in this state. -/
inductive CatchmentChange (s : State) : Option Catchment → Option Catchment → Prop
  | same (c : Option Catchment) : CatchmentChange s c c
  | gone (c : Option Catchment) : CatchmentChange s c none
  | fresh {d : CatchmentDef} (listed : ∀ g ∈ d.gauges, s.gauges[g].isSome) (c : Option Catchment) :
      CatchmentChange s c (some (Catchment.fresh d))
  | redefined {d : CatchmentDef} (listed : ∀ g ∈ d.gauges, s.gauges[g].isSome) (c : Catchment) :
      CatchmentChange s (some c) (some { c with defn := d })
  | evaluated (intensity depth : Nat) (c : Catchment) :
      CatchmentChange s (some c) (some (c.evaluate s.now intensity depth).catchment)
  | formed {floor : Option Floor} (later : ∀ f, floor = some f → s.ds < f.timer) (c : Catchment) :
      CatchmentChange s (some c) (some (Catchment.formEffective s.now { c with floor := floor }).catchment)
  | cleared (c : Catchment) : CatchmentChange s (some c) (some (Catchment.fresh c.defn))
  | acknowledged (c : Catchment) : CatchmentChange s (some c) (some { c with acknowledged := true })

theorem CatchmentChange.of_catchments {s t : State} (h : t.catchments = s.catchments) (j : Fin 8) :
    CatchmentChange s s.catchments[j] t.catchments[j] := by
  rw [h]
  exact .same _

theorem State.setCatchment_catchments_self (s : State) (k : Fin 8) (c : Option Catchment) :
    (s.setCatchment k c).catchments[k] = c := by simp

theorem State.setCatchment_catchments_of_ne (s : State) {j k : Fin 8} (h : j ≠ k) (c : Option Catchment) :
    (s.setCatchment k c).catchments[j] = s.catchments[j] := by
  have : k.val ≠ j.val := fun e => h (Fin.ext e.symm)
  simp [this]

/-- A catchment's record written, and the records beside it. -/
theorem State.setCatchment_change (s : State) {j k : Fin 8} {c : Option Catchment}
    (h : CatchmentChange s s.catchments[k] c) : CatchmentChange s s.catchments[j] (s.setCatchment k c).catchments[j] := by
  by_cases hj : j = k
  · subst hj
    rwa [State.setCatchment_catchments_self]
  · rw [s.setCatchment_catchments_of_ne hj c]
    exact .same _

@[simp] theorem State.reformCatchment_catchments (s : State) (k : Fin 8) (first : List CatchmentPost) (c : Catchment) :
    (s.reformCatchment k first c).catchments = (s.setCatchment k (some (c.formEffective s.now).catchment)).catchments := by
  simp [State.reformCatchment]

@[simp] theorem clearBlocks_catchments (s : State) :
    (clearBlocks s).catchments = s.catchments.map fun c => c.map fun c => Catchment.fresh c.defn := by
  simp [clearBlocks, clearCatchments, clearGauges]

theorem forecastFloor_later {s : State} {level : AlertLevel} {duration : Nat} (positive : level ≠ .noAlert → 0 < duration)
    (f : Floor) (h : forecastFloor s level duration = some f) : s.ds < f.timer := by
  rw [forecastFloor] at h
  split at h
  · simp at h
  · next lasting =>
    obtain rfl := Option.some.inj h
    have := positive lasting
    dsimp only
    omega

theorem Event.catchment {s t : State} (h : Event s t) (j : Fin 8) :
    CatchmentChange s s.catchments[j] t.catchments[j] := by
  cases h with
  | reset =>
    have gone : (resetState s).catchments[j] = none := by simp [resetState, State.held]
    rw [gone]
    exact .gone _
  | defineCatchment listed => exact s.setCatchment_change (.fresh listed _)
  | redefineCatchment listed defined => exact s.setCatchment_change (defined ▸ .redefined listed _)
  | @retireCatchment k =>
    have rest : (((s.setCatchment k none).discardCatchmentNotices k).formRainAlert).catchments = (s.setCatchment k none).catchments := by
      simp
    rw [rest]
    exact s.setCatchment_change (.gone _)
  | evaluate =>
    have judged : (evaluateAll s).catchments[j] = (s.evaluated j).map CatchmentStep.catchment := by simp
    rw [judged, State.evaluated]
    cases s.catchments[j] with
    | none => exact .same none
    | some c => exact .evaluated _ _ c
  | forecast defined positive =>
    rw [State.reformCatchment_catchments]
    exact s.setCatchment_change (defined ▸ .formed (forecastFloor_later positive) _)
  | floorExpiry defined =>
    rw [State.reformCatchment_catchments]
    exact s.setCatchment_change (defined ▸ .formed (fun _ h => by simp at h) _)
  | acknowledge defined => exact s.setCatchment_change (defined ▸ .acknowledged _)
  | clearBlocks =>
    have cleared : (Machine.clearBlocks s).catchments[j] = (s.catchments[j]).map fun c => Catchment.fresh c.defn := by simp
    rw [cleared]
    cases s.catchments[j] with
    | none => exact .same none
    | some c => exact .cleared c
  | trip move => exact .of_catchments move.catchments j
  | computes now =>
    cases now with
    | start | compute | promote => exact .of_catchments (by simp) j
  | zinh | setInhibit | stalls => exact .of_catchments (by simp [State.formInhibits]) j
  | talked | lineInReset | release | capSel | intake | mask | collect | clearNotices | readOrders | storeBank | restartPeriod | extend
    | startHold | moveHold | override | endHold => exact .same _
  | _ => exact .of_catchments (by simp) j

/-! ### The Alert Unit -/

/-- One change of the Alert Unit beside its records, at this count. -/
inductive AlertsChange (ds : Nat) (reset : Bool) : Alerts → Alerts → Prop
  | same (a : Alerts) : AlertsChange ds reset a a
  | reset (a : Alerts) : AlertsChange ds reset a Alerts.atReset
  | taken (a : Alerts) (held : reset = true) : AlertsChange ds reset a { a with evalTimer := startTimer ds a.interval }
  | interval (a : Alerts) (n : Nat) : AlertsChange ds reset a { a with interval := settingUsed 6 n }
  | rain (a : Alerts) (line : Bool) : AlertsChange ds reset a { a with rainAlert := line }
  | evaluated (a : Alerts) (running : a.evalTimer.isSome) (line : Bool) :
      AlertsChange ds reset a { a with evalTimer := startTimer ds a.interval, rainAlert := line }

theorem AlertsChange.of_eq {ds : Nat} {reset : Bool} {a b : Alerts} (h : b = a) : AlertsChange ds reset a b := by
  rw [h]
  exact .same a

theorem State.writeSetting_change (s : State) (n v : Nat) :
    AlertsChange s.ds s.resetAsserted s.alerts (s.writeSetting n (settingUsed n v)).alerts := by
  rw [State.writeSetting.eq_def]
  split
  case h_6 => exact .interval _ v
  all_goals exact .of_eq (by simp [State.formImminents])

theorem State.formRainAlert_change (s t : State) (h : t.alerts = s.alerts) (ds : Nat) (reset : Bool) :
    AlertsChange ds reset s.alerts t.formRainAlert.alerts := by
  rw [← h]
  exact .rain _ _

theorem Event.alerts {s t : State} (h : Event s t) : AlertsChange s.ds s.resetAsserted s.alerts t.alerts := by
  cases h with
  | reset => exact .reset _
  | release held => exact .taken _ held
  | setting n v => exact s.writeSetting_change n v
  | retireCatchment => exact State.formRainAlert_change s _ (by simp) _ _
  | evaluate running => exact .evaluated _ running _
  | forecast | floorExpiry => exact State.formRainAlert_change s _ (by simp) _ _
  | clearBlocks => exact State.formRainAlert_change s _ (by simp [clearGauges]) _ _
  | trip move => exact .of_eq move.alerts
  | computes now =>
    cases now with
    | start | compute | promote => exact .of_eq (by simp)
  | zinh | setInhibit | stalls => exact .of_eq (by simp [State.formInhibits])
  | talked | lineInReset | capSel | intake | mask | collect | clearNotices | readOrders | storeBank | restartPeriod | extend
    | startHold | moveHold | override | endHold => exact .same _
  | _ => exact .of_eq (by simp)

/-! ### The Allocator -/

/-- One change of the Allocator, at this count. -/
inductive AllocChange (ds : Nat) (reset : Bool) : Allocator → Allocator → Prop
  | same (a : Allocator) : AllocChange ds reset a a
  | listed (a : Allocator) (list : List (Fin 32)) : AllocChange ds reset a { a with runOrder := list }
  | reset (a : Allocator) : AllocChange ds reset a Allocator.atReset
  | taken (a : Allocator) (held : reset = true) (n : Fin 8) :
      AllocChange ds reset a { a with observed := n, selected := n, budget := a.banks[n] }
  | seen (a : Allocator) (released : reset = false) (n : Fin 8) : AllocChange ds reset a { a with
      observed := n, settleTimer := if n = a.selected then none else startTimer ds a.settleTime }
  | period (a : Allocator) (n : Nat) : AllocChange ds reset a { a with period := settingUsed 1 n }
  | guardBand (a : Allocator) (n : Nat) : AllocChange ds reset a { a with guardBand := settingUsed 2 n }
  | overrideBudget (a : Allocator) (n : Nat) : AllocChange ds reset a { a with overrideBudget := settingUsed 3 n }
  | imminentThreshold (a : Allocator) (n : Nat) : AllocChange ds reset a { a with imminentThreshold := settingUsed 4 n }
  | settleTime (a : Allocator) (n : Nat) : AllocChange ds reset a { a with settleTime := settingUsed 5 n }
  | stored (a : Allocator) {i : Fin 8} (other : i ≠ a.selected) (b : Nat) :
      AllocChange ds reset a { a with banks := a.banks.set i b }
  | storedSelected (a : Allocator) (b : Nat) :
      AllocChange ds reset a { a with banks := a.banks.set a.selected b, budget := b }
  | settled (a : Allocator) : AllocChange ds reset a { a with
      selected := a.observed, settleTimer := none, budget := a.banks[a.observed] }
  | started (a : Allocator) (list : List (Fin 32)) (overrun : Bool) (last : Option LastComputation) : AllocChange ds reset a { a with
      running := true, runOrder := list, overrun := overrun, last := last, periodTimer := startTimer ds a.period }
  | computed (a : Allocator) (list : List (Fin 32)) (overrun : Bool) (last : Option LastComputation) :
      AllocChange ds reset a { a with runOrder := list, overrun := overrun, last := last }
  | restarted (a : Allocator) (running : a.running = true) : AllocChange ds reset a { a with periodTimer := startTimer ds a.period }
  | stopped (a : Allocator) : AllocChange ds reset a { a with running := false, periodTimer := none, runOrder := [], overrun := false }

theorem AllocChange.of_eq {ds : Nat} {reset : Bool} {a b : Allocator} (h : b = a) : AllocChange ds reset a b := by
  rw [h]
  exact .same a

theorem AllocChange.of_listed {ds : Nat} {reset : Bool} {a b : Allocator} (h : b = { a with runOrder := b.runOrder }) :
    AllocChange ds reset a b := by
  rw [h]
  exact .listed a _

theorem State.writeSetting_allocChange (s : State) (n v : Nat) :
    AllocChange s.ds s.resetAsserted s.alloc (s.writeSetting n (settingUsed n v)).alloc := by
  rw [State.writeSetting.eq_def]
  split
  case h_1 => exact .period _ v
  case h_2 => exact .guardBand _ v
  case h_3 => exact .overrideBudget _ v
  case h_4 =>
    have written (u : State) : u.formImminents.alloc = u.alloc := by simp [State.formImminents]
    rw [written]
    exact .imminentThreshold _ v
  case h_5 => exact .settleTime _ v
  all_goals exact .same _

theorem Event.alloc {s t : State} (h : Event s t) : AllocChange s.ds s.resetAsserted s.alloc t.alloc := by
  cases h with
  | reset => exact .reset _
  | release held => exact .taken _ held _
  | capSel released => exact .seen _ released _
  | setting n v => exact s.writeSetting_allocChange n v
  | zinh => exact .of_listed (by simp [zinhEvent, State.formInhibits])
  | setInhibit => exact .of_listed (by simp [State.formInhibits])
  | takeOffline | lost => exact .of_listed (by simp)
  | stalls => exact .of_listed (by simp [stallStage])
  | storeBank other b => exact .stored _ other b
  | storeSelectedBank b =>
    rw [setBudget_alloc, State.storeBank_alloc]
    exact .storedSelected _ b
  | settle =>
    rw [setBudget_alloc, State.selectObserved_alloc]
    exact .settled _
  | computes now =>
    cases now with
    | start =>
      rw [State.startPeriod_alloc, computation_alloc, computation_ds]
      exact .started _ _ _ _
    | compute =>
      rw [computation_alloc]
      exact .computed _ _ _ _
    | promote =>
      rw [computation_alloc, promotion_alloc]
      exact .computed _ _ _ _
  | restartPeriod running => exact .restarted _ running
  | stop =>
    rw [stopAllocator_alloc, State.zeroOrders_alloc]
    exact .stopped _
  | clearBlocks =>
    rw [clearBlocks_alloc]
    exact .stopped _
  | trip move => exact .of_eq move.alloc
  | talked | lineInReset | intake | mask | collect | clearNotices | readOrders | extend | startHold | moveHold | override | endHold =>
    exact .same _
  | _ => exact .of_eq (by simp)

/-! ### The Intake Guard -/

/-- One change of the Intake Guard, at this count and device time. -/
inductive GuardChange (ds now : Nat) : Guard → Guard → Prop
  | reset (g : Guard) : GuardChange ds now g Guard.atReset
  | line (g : Guard) (level : Bool) : GuardChange ds now g { g with lineHigh := level }
  | filterTime (g : Guard) (n : Nat) : GuardChange ds now g { g with filterTime := settingUsed 7 n }
  | blankTime (g : Guard) (n : Nat) : GuardChange ds now g { g with blankTime := settingUsed 8 n }
  | offTime (g : Guard) (n : Nat) : GuardChange ds now g { g with offTime := settingUsed 9 n }
  | longestHold (g : Guard) (n : Nat) : GuardChange ds now g { g with longestHold := settingUsed 10 n }
  | armed (g : Guard) : GuardChange ds now g { g with trip := .armed none }
  | filtering (g : Guard) (lasts : g.filterTime ≠ 0) :
      GuardChange ds now g { g with trip := .armed (startTimer ds g.filterTime) }
  | blanked (g : Guard) (lasts : g.blankTime ≠ 0) : GuardChange ds now g { g with trip := .blanked (ds + 10 * g.blankTime) }
  | tripped (g : Guard) (count extensions : Nat) : GuardChange ds now g { g with
      trip := .tripped (ds + 10 * g.offTime), tripCount := count, extensionCount := extensions }
  | startHold (g : Guard) {length : Nat} (short : length ≤ g.longestHold) :
      GuardChange ds now g { g with hold := .held now (now + g.longestHold) (now + length) (ds + 10 * length) }
  | moveHold (g : Guard) {start limit stop timer : Nat} (held : g.hold = .held start limit stop timer) {moved : Nat}
      (later : stop ≤ limit → stop ≤ moved) (within : moved ≤ limit) :
      GuardChange ds now g { g with hold := .held start limit moved (ds + 10 * (moved - now)) }
  | override (g : Guard) (start limit : Nat) : GuardChange ds now g { g with hold := .overridden start limit }
  | endHold (g : Guard) : GuardChange ds now g { g with hold := .noHold }

/-- A chain of changes of the Intake Guard. -/
abbrev GuardChanges (ds now : Nat) : Guard → Guard → Prop := Relation.ReflTransGen (GuardChange ds now)

theorem GuardChange.changes {ds now : Nat} {g h : Guard} (c : GuardChange ds now g h) : GuardChanges ds now g h := .single c

theorem GuardChanges.of_eq {ds now : Nat} {g h : Guard} (e : h = g) : GuardChanges ds now g h := by
  rw [e]

@[simp] theorem enterTripped_guard (s : State) : (enterTripped s).guard = { s.guard with
    trip := .tripped (s.ds + 10 * s.guard.offTime), tripCount := satAdd max16 s.guard.tripCount 1 } := by
  simp [enterTripped]

theorem TripMove.guardChange {s t : State} (h : TripMove s t) : GuardChange s.ds s.now s.guard t.guard := by
  cases h with
  | armed => exact .armed _
  | filtering lasts => exact .filtering _ lasts
  | blanked lasts => exact .blanked _ lasts
  | tripped =>
    rw [enterTripped_guard]
    exact .tripped _ _ _

theorem TripMoves.guardChanges {s t : State} (h : TripMoves s t) : GuardChanges s.ds s.now s.guard t.guard := by
  induction h with
  | refl => exact .refl
  | tail moves move ih =>
    have same := TripMoves.keeps (f := State.ds) (fun move => move.ds) moves
    have change := move.guardChange
    rw [State.now, same] at change
    exact ih.tail change

theorem State.writeSetting_guardChanges (s : State) (n v : Nat) :
    GuardChanges s.ds s.now s.guard (s.writeSetting n (settingUsed n v)).guard := by
  rw [State.writeSetting.eq_def]
  split
  case h_4 => exact .of_eq (by simp [State.formImminents])
  case h_7 => exact (GuardChange.filterTime _ v).changes
  case h_8 => exact (GuardChange.blankTime _ v).changes
  case h_9 => exact (GuardChange.offTime _ v).changes
  case h_10 => exact (GuardChange.longestHold _ v).changes
  all_goals exact .refl

theorem Event.guard {s t : State} (h : Event s t) : GuardChanges s.ds s.now s.guard t.guard := by
  cases h with
  | reset => exact (GuardChange.reset _).changes
  | release => exact (GuardChange.line _ _).changes
  | intake => exact (GuardChange.line _ _).changes
  | setting n v => exact s.writeSetting_guardChanges n v
  | trip move => exact move.guardChange.changes
  | extend => exact (GuardChange.tripped _ _ _).changes
  | startHold _ short => exact (GuardChange.startHold _ short).changes
  | moveHold held later within => exact (GuardChange.moveHold _ held later within).changes
  | override => exact (GuardChange.override _ _ _).changes
  | endHold => exact (GuardChange.endHold _).changes
  | computes now =>
    cases now with
    | start | compute => exact .of_eq (by simp)
    | promote =>
      have moves := (promotion_moves s).guardChanges
      rw [State.now, promoteOrders_ds, promoteOrders_guard] at moves
      rw [computation_guard]
      exact moves
  | zinh | setInhibit | stalls => exact .of_eq (by simp [State.formInhibits])
  | talked | lineInReset | capSel | mask | collect | clearNotices | readOrders | storeBank | restartPeriod => exact .refl
  | _ => exact .of_eq (by simp)

end Sys2Proof.Machine
end

section
/-! PROOFS. The settings stay in their ranges, and with them no timer's expiry falls behind the count (R184, R189): an event starts a timer
only for a time still to come, and the tick takes every expiry that the count has reached. -/

namespace Sys2Proof.Machine

/-! ### Ranges -/

theorem settingUsed_mem (n v : Nat) : settingUsed n v ∈ Set.Icc (settingRange n).1 (settingRange n).2 := by
  have ordered : (settingRange n).1 ≤ (settingRange n).2 := by
    rw [settingRange.eq_def]
    split <;> decide
  rw [settingUsed, clamp, Set.mem_Icc]
  omega

/-- The settings of the Allocator in their ranges (R104). -/
def Allocator.inRange (a : Allocator) : Prop :=
  a.period ∈ Set.Icc 30 900 ∧ a.guardBand ≤ 65535 ∧ a.overrideBudget ≤ 65535 ∧ a.imminentThreshold ∈ Set.Icc 60 86400 ∧
    a.settleTime ∈ Set.Icc 1 60

/-- The settings of the Intake Guard in their ranges (R141). -/
def Guard.inRange (g : Guard) : Prop :=
  g.filterTime ≤ 60 ∧ g.blankTime ≤ 600 ∧ g.offTime ∈ Set.Icc 30 900 ∧ g.longestHold ∈ Set.Icc 300 86400

/-- The times of a definition part in their ranges (R1). -/
def TankDef.timesOk (d : TankDef) : Prop :=
  d.reportTimeout ∈ Set.Icc 60 3600 ∧ d.quietTime ∈ Set.Icc 60 7200 ∧ d.confirmTime ≤ 600

/-- The times of the tank of a slot in their ranges. -/
def Slot.timesOk (x : Slot) : Prop :=
  ∀ t, x.tank = some t → t.defn.timesOk

/-- The times of a gauge in their ranges (R63). -/
def Gauge.timesOk (g : Gauge) : Prop :=
  g.debounce ∈ Set.Icc 1 50 ∧ g.dryGap ∈ Set.Icc 600 86400

section
variable {ds now : Nat} {reset : Bool}

theorem AllocChange.inRange {a b : Allocator} (h : AllocChange ds reset a b) (ha : a.inRange) : b.inRange := by
  obtain ⟨period, guardBand, override, threshold, settle⟩ := ha
  cases h with
  | reset => simp [Allocator.inRange, Allocator.atReset]
  | period n => exact ⟨settingUsed_mem 1 n, guardBand, override, threshold, settle⟩
  | guardBand n => exact ⟨period, (settingUsed_mem 2 n).2, override, threshold, settle⟩
  | overrideBudget n => exact ⟨period, guardBand, (settingUsed_mem 3 n).2, threshold, settle⟩
  | imminentThreshold n => exact ⟨period, guardBand, override, settingUsed_mem 4 n, settle⟩
  | settleTime n => exact ⟨period, guardBand, override, threshold, settingUsed_mem 5 n⟩
  | _ => exact ⟨period, guardBand, override, threshold, settle⟩

theorem AlertsChange.inRange {a b : Alerts} (h : AlertsChange ds reset a b) (ha : a.interval ∈ Set.Icc 10 600) :
    b.interval ∈ Set.Icc 10 600 := by
  cases h with
  | reset => simp [Alerts.atReset]
  | interval n => exact settingUsed_mem 6 n
  | _ => exact ha

theorem GuardChange.inRange {g h : Guard} (c : GuardChange ds now g h) (hg : g.inRange) : h.inRange := by
  obtain ⟨filter, blank, off, longest⟩ := hg
  cases c with
  | reset => simp [Guard.inRange, Guard.atReset]
  | filterTime n => exact ⟨(settingUsed_mem 7 n).2, blank, off, longest⟩
  | blankTime n => exact ⟨filter, (settingUsed_mem 8 n).2, off, longest⟩
  | offTime n => exact ⟨filter, blank, settingUsed_mem 9 n, longest⟩
  | longestHold n => exact ⟨filter, blank, off, settingUsed_mem 10 n⟩
  | _ => exact ⟨filter, blank, off, longest⟩

theorem GaugeChange.timesOk {g h : Option Gauge} (c : GaugeChange ds g h) (hg : ∀ u, g = some u → u.timesOk) :
    ∀ u, h = some u → u.timesOk := by
  have ranges {depth debounce dryGap : Nat} (ok : gaugeValuesOk depth debounce dryGap = true) :
      debounce ∈ Set.Icc 1 50 ∧ dryGap ∈ Set.Icc 600 86400 := by
    simp only [gaugeValuesOk, Bool.and_eq_true, decide_eq_true_eq] at ok
    simp only [Set.mem_Icc]
    omega
  intro u hu
  cases c with
  | same => exact hg u hu
  | gone => simp at hu
  | fresh ok =>
    obtain rfl := Option.some.inj hu
    exact ranges ok
  | redefined ok =>
    obtain rfl := Option.some.inj hu
    exact ranges ok
  | tip g =>
    obtain rfl := Option.some.inj hu
    have kept := hg g rfl
    rw [Gauge.tip]
    split <;> exact kept
  | endStorm g =>
    obtain rfl := Option.some.inj hu
    exact hg g rfl

end

/-! ### The definition part of a slot -/

section
variable {x y : Slot}

/-- The definition part at a slot. -/
def Slot.defn (x : Slot) : Option TankDef :=
  x.tank.map Tank.defn

theorem Slot.defn_of_map {f : Tank → Tank} (tank : y.tank = x.tank.map f) (hf : ∀ t, (f t).defn = t.defn) : y.defn = x.defn := by
  rw [defn, defn, tank]
  cases x.tank with
  | none => rfl
  | some t => exact congrArg some (hf t)

theorem Slot.defn_of {t u : Tank} (ht : x.tank = some t) (hu : y.tank = some u) (same : u.defn = t.defn) : y.defn = x.defn := by
  rw [defn, defn, ht, hu, Option.map_some, Option.map_some, same]

theorem SlotTrip.defn (h : SlotTrip x y) : y.defn = x.defn := by
  cases h with
  | leave => rfl
  | enter =>
    have written : (x.write 0 0).defn = x.defn := Slot.defn_of_map rfl fun _ => rfl
    rw [← written]
    exact Slot.defn_of_map rfl fun _ => rfl
  | pass => exact Slot.defn_of_map rfl fun _ => rfl

theorem SlotCompute.tank (h : SlotCompute x y) : y.tank = x.tank := by
  cases h with
  | idle => rfl
  | served => rfl

/-- What a change does to the definition part: it stands, goes, or is one that DEFINE_TANK has checked. -/
theorem SlotChange.defn {lines : Vector Bool 4} {now : State} {computes : Prop} (h : SlotChange lines now computes x y) :
    y.defn = x.defn ∨ y.defn = none ∨
      ∃ c z f, tankFieldsOk f = true ∧ now.catchments[c].isSome ∧ y.defn = some (tankDefOf c z f) := by
  cases h with
  | reset => exact .inr (.inl rfl)
  | retire => exact .inr (.inl rfl)
  | create ok named => exact .inr (.inr ⟨_, _, _, ok, named, rfl⟩)
  | redefine ok named => exact .inr (.inr ⟨_, _, _, ok, named, rfl⟩)
  | tables defined | place defined | mode defined | inhibit defined | rise defined | report defined | stale defined | lost defined
    | clearFault defined | stall defined | latch defined => exact .inl (Slot.defn_of defined rfl rfl)
  | takeOffline defined => exact .inl (Slot.defn_of defined rfl rfl)
  | @counts t defined =>
    refine .inl (Slot.defn_of defined rfl ?_)
    rw [Tank.resetCounts]
    split <;> rfl
  | flag | imminent => exact .inl (Slot.defn_of_map rfl fun _ => rfl)
  | cut => exact .inl (Slot.defn_of_map rfl fun _ => rfl)
  | seen | delist => exact .inl rfl
  | trip move => exact .inl move.defn
  | compute _ computed => exact .inl (congrArg (Option.map Tank.defn) computed.tank)
  | run _ moves computed =>
    refine .inl ((congrArg (Option.map Tank.defn) computed.tank).trans ?_)
    have promoted : x.promote.defn = x.defn := Slot.defn_of_map rfl fun _ => rfl
    exact SlotTrip.chain (P := fun z => z.defn = x.defn) (fun move same => move.defn.trans same) moves promoted
  | clear =>
    have withdrawn : x.withdrawn.defn = x.defn := Slot.defn_of_map rfl fun _ => rfl
    rw [← withdrawn]
    refine .inl (Slot.defn_of_map rfl fun t => ?_)
    rw [Tank.clearState]
    split <;> rfl

theorem tankDefOf_timesOk {c : Fin 8} {z : Fin 4} {f : TankFields} (ok : tankFieldsOk f = true) : (tankDefOf c z f).timesOk := by
  simp only [tankFieldsOk, Bool.and_eq_true, decide_eq_true_eq] at ok
  simp only [TankDef.timesOk, tankDefOf, Set.mem_Icc]
  omega

theorem Slot.timesOk_iff : x.timesOk ↔ ∀ d, x.defn = some d → d.timesOk := by
  constructor
  · intro h d hd
    obtain ⟨t, ht, rfl⟩ := Option.map_eq_some_iff.1 hd
    exact h t ht
  · intro h t ht
    exact h t.defn (congrArg (Option.map Tank.defn) ht)

theorem SlotChange.timesOk {lines : Vector Bool 4} {now : State} {computes : Prop} (h : SlotChange lines now computes x y)
    (hx : x.timesOk) : y.timesOk := by
  rw [Slot.timesOk_iff] at hx ⊢
  rcases h.defn with same | gone | ⟨c, z, f, ok, -, defined⟩
  · rwa [same]
  · simp [gone]
  · intro d hd
    obtain rfl := Option.some.inj (defined.symm.trans hd)
    exact tankDefOf_timesOk ok

end

theorem State.writeSetting_windowHours (s : State) (n v : Nat) : (s.writeSetting n v).windowHours = s.windowHours ∨
    n = 11 ∧ (s.writeSetting n v).windowHours = v := by
  rw [State.writeSetting.eq_def]
  split
  case h_11 => exact .inr ⟨rfl, rfl⟩
  all_goals exact .inl (by simp [State.formImminents])

/-- W stands, is a value that SET_LIMITS has clamped, or is the default. -/
theorem Event.windowHours {s t : State} (h : Event s t) : t.windowHours = s.windowHours ∨ t.windowHours ∈ Set.Icc 1 72 := by
  cases h with
  | reset => exact .inr (by simp [resetState, State.held])
  | setting n v =>
    rcases s.writeSetting_windowHours n (settingUsed n v) with same | ⟨rfl, written⟩
    · exact .inl same
    · rw [written]
      exact .inr (settingUsed_mem 11 v)
  | trip move => exact .inl move.windowHours
  | computes now =>
    cases now with
    | start | compute | promote => exact .inl (by simp)
  | zinh | setInhibit | stalls => exact .inl (by simp [State.formInhibits])
  | talked | lineInReset | release | capSel | intake | mask | collect | clearNotices | readOrders | storeBank | restartPeriod | extend
    | startHold | moveHold | override | endHold => exact .inl rfl
  | _ => exact .inl (by simp)

theorem settingsInRange_iff (s : State) : SettingsInRange s ↔ s.alloc.inRange ∧ s.alerts.interval ∈ Set.Icc 10 600 ∧
    s.guard.inRange ∧ s.windowHours ∈ Set.Icc 1 72 ∧ (∀ i, (s.slot i).timesOk) ∧ ∀ k : Fin 12, ∀ g, s.gauges[k] = some g → g.timesOk := by
  simp only [SettingsInRange, Allocator.inRange, Guard.inRange, and_assoc]
  rfl

theorem Event.inRange {s t : State} (h : Event s t) (hs : SettingsInRange s) : SettingsInRange t := by
  rw [settingsInRange_iff] at hs ⊢
  obtain ⟨alloc, interval, guard, window, tanks, gauges⟩ := hs
  refine ⟨h.alloc.inRange alloc, h.alerts.inRange interval, ?_, ?_, ?_, fun k => (h.gauge k).timesOk (gauges k)⟩
  · have changes := h.guard
    generalize t.guard = u at changes
    induction changes with
    | refl => exact guard
    | tail _ change ih => exact change.inRange ih
  · rcases h.windowHours with same | range
    · rwa [same]
    · exact range
  · exact (Kept.of_slots (P := Slot.timesOk) fun change => change.timesOk).event h tanks

theorem settingsInRange_kept : Kept SettingsInRange where
  event h hs := h.inRange hs
  count _ _ hs := hs

/-! ### The stale timer of a slot -/

section
variable {x y : Slot}

/-- The stale timer of a tank. -/
def Tank.staleTimer (t : Tank) : Timer :=
  t.service.bind fun v => v.level.staleTimer

/-- The stale timer at a slot. -/
def Slot.staleTimer (x : Slot) : Timer :=
  x.tank.bind Tank.staleTimer

theorem Tank.staleTimer_of {t : Tank} {v : Service} (present : t.service = some v) : t.staleTimer = v.level.staleTimer := by
  rw [staleTimer, present, Option.bind_some]

theorem Slot.staleTimer_of {t : Tank} (defined : x.tank = some t) : x.staleTimer = t.staleTimer := by
  rw [staleTimer, defined, Option.bind_some]

theorem Tank.mapService_staleTimer {f : Service → Service} (hf : ∀ v, (f v).level.staleTimer = v.level.staleTimer) (t : Tank) :
    (t.mapService f).staleTimer = t.staleTimer := by
  rw [staleTimer, staleTimer, mapService]
  cases t.service with
  | none => rfl
  | some v => exact hf v

theorem Slot.staleTimer_of_map {f : Tank → Tank} (tank : y.tank = x.tank.map f) (hf : ∀ t, (f t).staleTimer = t.staleTimer) :
    y.staleTimer = x.staleTimer := by
  rw [staleTimer, staleTimer, tank]
  cases x.tank with
  | none => rfl
  | some t => exact hf t

theorem Slot.staleTimer_of_tank {t u : Tank} (ht : x.tank = some t) (hu : y.tank = some u)
    (same : u.staleTimer = t.staleTimer) : y.staleTimer = x.staleTimer := by
  rw [Slot.staleTimer_of ht, Slot.staleTimer_of hu, same]

theorem Service.activeChange_level (d : TankDef) (old new : Nat) (v : Service) : (v.activeChange d old new).level = v.level := by
  rw [activeChange]
  split <;> rfl

theorem Slot.write_staleTimer (active next : Nat) (x : Slot) : (x.write active next).staleTimer = x.staleTimer :=
  Slot.staleTimer_of_map rfl fun t =>
    t.mapService_staleTimer fun v => by rw [Service.activeChange_level]

theorem Slot.withdrawn_staleTimer (x : Slot) : x.withdrawn.staleTimer = x.staleTimer :=
  x.write_staleTimer 0 0

theorem SlotTrip.staleTimer (h : SlotTrip x y) : y.staleTimer = x.staleTimer := by
  cases h with
  | leave => rfl
  | enter =>
    rw [← x.write_staleTimer 0 0]
    exact Slot.staleTimer_of_map rfl fun t => t.mapService_staleTimer fun _ => by rfl
  | pass => exact Slot.staleTimer_of_map rfl fun t => t.mapService_staleTimer fun _ => by rfl

theorem Slot.promote_staleTimer (x : Slot) : x.promote.staleTimer = x.staleTimer := by
  refine Slot.staleTimer_of_map rfl fun t => ?_
  have snapshot (v : Service) : (v.takeSnapshot x.promoted).level.staleTimer = v.level.staleTimer := by
    rw [Service.takeSnapshot]
    split <;> rfl
  refine (Tank.mapService_staleTimer snapshot _).trans (t.mapService_staleTimer fun v => ?_)
  rw [Service.activeChange_level]

/-- A stale timer is the one before, or runs to a count still to come (R25, R38). -/
theorem SlotChange.staleTimer {lines : Vector Bool 4} {now : State} {computes : Prop} (h : SlotChange lines now computes x y)
    (range : x.timesOk) {n : Nat} (running : y.staleTimer = some n) : x.staleTimer = some n ∨ now.ds < n := by
  have kept (same : y.staleTimer = x.staleTimer) : x.staleTimer = some n ∨ now.ds < n := .inl (same ▸ running)
  have started {t : Tank} (defined : x.tank = some t) (timer : y.staleTimer = startTimer now.ds t.defn.reportTimeout) :
      x.staleTimer = some n ∨ now.ds < n := by
    obtain ⟨⟨long, -⟩, -⟩ := range t defined
    rw [timer, startTimer] at running
    have := Option.some.inj running
    omega
  cases h with
  | reset | create => simp [Slot.staleTimer, Tank.staleTimer, Tank.fresh, Tank.formInhibit] at running
  | retire => simp [Slot.staleTimer] at running
  | redefine _ _ defined | tables defined | mode defined | inhibit defined =>
    exact kept (Slot.staleTimer_of_tank defined rfl rfl)
  | clearFault defined present | stall defined present =>
    exact kept (Slot.staleTimer_of_tank defined rfl (Tank.staleTimer_of present).symm)
  | place | takeOffline => simp [Slot.staleTimer, Tank.staleTimer, Service.fresh, LevelState.fresh, Tank.leaveService] at running
  | rise defined =>
    refine kept ?_
    rw [Slot.withdrawn_staleTimer]
    exact Slot.staleTimer_of_tank defined rfl rfl
  | latch defined present =>
    refine kept ?_
    rw [Slot.withdrawn_staleTimer]
    exact Slot.staleTimer_of_tank defined rfl (Tank.staleTimer_of present).symm
  | report defined => exact started defined rfl
  | stale defined => exact started defined rfl
  | lost defined =>
    refine started defined ?_
    rw [Slot.withdrawn_staleTimer]
    rfl
  | @counts t defined =>
    refine kept (Slot.staleTimer_of_tank defined rfl ?_)
    rw [Tank.resetCounts]
    split
    · exact t.mapService_staleTimer fun _ => by rfl
    · rfl
  | flag | imminent => exact kept (Slot.staleTimer_of_map rfl fun t => t.mapService_staleTimer fun _ => by rfl)
  | cut => exact kept (x.write_staleTimer _ _)
  | seen | delist => exact kept rfl
  | trip move => exact kept move.staleTimer
  | compute _ computed => exact kept (congrArg (Option.bind · Tank.staleTimer) computed.tank)
  | run _ moves computed =>
    refine kept ((congrArg (Option.bind · Tank.staleTimer) computed.tank).trans ?_)
    exact SlotTrip.chain (P := fun z => z.staleTimer = x.staleTimer) (fun move same => move.staleTimer.trans same) moves
      x.promote_staleTimer
  | clear =>
    simp only [Slot.staleTimer] at running
    obtain ⟨u, hu, timer⟩ := Option.bind_eq_some_iff.1 running
    obtain ⟨t, -, rfl⟩ := Option.map_eq_some_iff.1 hu
    rw [Tank.clearState] at timer
    split at timer
    · next offline => simp [Tank.staleTimer, Tank.formInhibit, offline] at timer
    · simp [Tank.staleTimer, Service.fresh, LevelState.fresh] at timer

end

/-! ### The timers of the other records -/

section
variable {ds now n : Nat} {reset : Bool}

theorem GaugeChange.dryTimer {g h : Option Gauge} (c : GaugeChange ds g h) (range : ∀ u, g = some u → u.timesOk)
    (running : h.bind Gauge.dryTimer = some n) : g.bind Gauge.dryTimer = some n ∨ ds < n := by
  cases c with
  | same => exact .inl running
  | gone | fresh | endStorm => simp [Gauge.fresh, Gauge.endStorm] at running
  | redefined => exact .inl running
  | tip g =>
    obtain ⟨-, long, -⟩ := range g rfl
    have timer : (g.tip ds).dryTimer = startTimer ds g.dryGap := by
      rw [Gauge.tip]
      split <;> rfl
    rw [Option.bind_some, timer, startTimer] at running
    have := Option.some.inj running
    omega

theorem Catchment.formEffective_floor (now : Nat) (c : Catchment) : (c.formEffective now).catchment.floor = c.floor := by
  obtain ⟨-, -, -, floor⟩ := c.formEffective_levels now
  exact floor

theorem Catchment.evaluate_floor (now intensity depth : Nat) (c : Catchment) :
    (c.evaluate now intensity depth).catchment.floor = c.floor := by
  obtain ⟨-, floor, -⟩ := Catchment.evaluate_levels (now := now) (intensity := intensity) (depth := depth) (c := c) rfl
  exact floor

/-- The floor timer of a catchment record. -/
def floorTimer (c : Option Catchment) : Timer :=
  c.bind fun c => c.floor.map Floor.timer

theorem CatchmentChange.floorTimer {s : State} {c d : Option Catchment} (h : CatchmentChange s c d)
    (running : floorTimer d = some n) : floorTimer c = some n ∨ s.ds < n := by
  cases h with
  | same | redefined | acknowledged => exact .inl running
  | gone | fresh | cleared => simp [Machine.floorTimer, Catchment.fresh] at running
  | evaluated intensity depth c =>
    simp only [Machine.floorTimer, Option.bind_some, Catchment.evaluate_floor] at running
    exact .inl running
  | formed later c =>
    simp only [Machine.floorTimer, Option.bind_some, Catchment.formEffective_floor] at running
    obtain ⟨f, hf, rfl⟩ := Option.map_eq_some_iff.1 running
    exact .inr (later f hf)

theorem startTimer_later {seconds : Nat} (long : 1 ≤ seconds) (running : startTimer ds seconds = some n) : ds < n := by
  rw [startTimer] at running
  have := Option.some.inj running
  omega

theorem AlertsChange.evalTimer {a b : Alerts} (h : AlertsChange ds reset a b) (range : a.interval ∈ Set.Icc 10 600)
    (running : b.evalTimer = some n) : a.evalTimer = some n ∨ ds < n := by
  obtain ⟨long, -⟩ := range
  cases h with
  | reset => simp [Alerts.atReset] at running
  | taken | evaluated => exact .inr (startTimer_later (by omega) running)
  | _ => exact .inl running

theorem AllocChange.settleTimer {a b : Allocator} (h : AllocChange ds reset a b) (range : a.inRange)
    (running : b.settleTimer = some n) : a.settleTimer = some n ∨ ds < n := by
  obtain ⟨-, -, -, -, long, -⟩ := range
  cases h with
  | reset => simp [Allocator.atReset] at running
  | settled => simp at running
  | seen _ m =>
    by_cases same : m = a.selected
    · simp [same] at running
    · exact .inr (startTimer_later long (by simpa [same] using running))
  | _ => exact .inl running

theorem AllocChange.periodTimer {a b : Allocator} (h : AllocChange ds reset a b) (range : a.inRange)
    (running : b.periodTimer = some n) : a.periodTimer = some n ∨ ds < n := by
  obtain ⟨⟨long, -⟩, -⟩ := range
  cases h with
  | reset => simp [Allocator.atReset] at running
  | stopped => simp at running
  | started | restarted => exact .inr (startTimer_later (by omega) running)
  | _ => exact .inl running

theorem GuardChange.tripTimers {g h : Guard} (c : GuardChange ds now g h) (range : g.inRange) :
    (∀ n, h.trip.filterTimer = some n → g.trip.filterTimer = some n ∨ ds < n) ∧
      (∀ n, h.trip.blankTimer = some n → g.trip.blankTimer = some n ∨ ds < n) ∧
      ∀ n, h.trip.offTimer = some n → g.trip.offTimer = some n ∨ ds < n := by
  obtain ⟨-, -, ⟨long, -⟩, -⟩ := range
  cases c with
  | reset | armed => simp [Guard.atReset, Trip.filterTimer, Trip.blankTimer, Trip.offTimer]
  | filtering lasts =>
    refine ⟨fun n running => .inr (startTimer_later (Nat.pos_of_ne_zero lasts) running), ?_, ?_⟩ <;>
      simp [Trip.blankTimer, Trip.offTimer]
  | blanked lasts =>
    refine ⟨?_, fun n running => .inr (startTimer_later (Nat.pos_of_ne_zero lasts) running), ?_⟩ <;>
      simp [Trip.filterTimer, Trip.offTimer]
  | tripped =>
    refine ⟨?_, ?_, fun n running => .inr (startTimer_later (by omega) running)⟩ <;>
      simp [Trip.filterTimer, Trip.blankTimer]
  | _ => exact ⟨fun _ => .inl, fun _ => .inl, fun _ => .inl⟩

theorem GuardChange.endTimer {g h : Guard} (c : GuardChange ds now g h) (running : h.hold.endTimer = some n) :
    g.hold.endTimer = some n ∨ ds ≤ n := by
  cases c with
  | reset => simp [Guard.atReset, Hold.endTimer] at running
  | startHold | moveHold =>
    have := Option.some.inj running
    omega
  | override | endHold => simp [Hold.endTimer] at running
  | _ => exact .inl running

end

/-! ### The timers along events -/

theorem State.timerOf_stale (s : State) (i : Fin 32) : s.timerOf (.stale i) = (s.slot i).staleTimer := by
  rw [timerOf, serviceAt, Slot.staleTimer, State.slot, Option.bind_assoc]
  refine congrArg (Option.bind _) (funext fun t => ?_)
  rw [Tank.staleTimer]
  cases t.service <;> rfl

theorem SlotChanges.staleTimer {lines : Vector Bool 4} {now : State} {computes : Prop} {x y : Slot}
    (h : SlotChanges lines now computes x y) (range : x.timesOk) {n : Nat} (running : y.staleTimer = some n) :
    x.staleTimer = some n ∨ now.ds < n := by
  suffices both : y.timesOk ∧ (y.staleTimer = some n → x.staleTimer = some n ∨ now.ds < n) from both.2 running
  clear running
  induction h with
  | refl => exact ⟨range, .inl⟩
  | tail _ change ih =>
    obtain ⟨ok, before⟩ := ih
    refine ⟨change.timesOk ok, fun runs => ?_⟩
    rcases change.staleTimer ok runs with same | later
    · exact before same
    · exact .inr later

theorem GuardChanges.tripTimers {ds now : Nat} {g h : Guard} (c : GuardChanges ds now g h) (range : g.inRange) :
    (∀ n, h.trip.filterTimer = some n → g.trip.filterTimer = some n ∨ ds < n) ∧
      (∀ n, h.trip.blankTimer = some n → g.trip.blankTimer = some n ∨ ds < n) ∧
      ∀ n, h.trip.offTimer = some n → g.trip.offTimer = some n ∨ ds < n := by
  suffices both : h.inRange ∧ _ from both.2
  induction c with
  | refl => exact ⟨range, fun _ => .inl, fun _ => .inl, fun _ => .inl⟩
  | tail _ change ih =>
    obtain ⟨ok, filter, blank, off⟩ := ih
    obtain ⟨filter', blank', off'⟩ := change.tripTimers ok
    exact ⟨change.inRange ok, fun n now => (filter' n now).elim (filter n) .inr, fun n now => (blank' n now).elim (blank n) .inr,
      fun n now => (off' n now).elim (off n) .inr⟩

theorem GuardChanges.endTimer {ds now n : Nat} {g h : Guard} (c : GuardChanges ds now g h) (running : h.hold.endTimer = some n) :
    g.hold.endTimer = some n ∨ ds ≤ n := by
  suffices before : h.hold.endTimer = some n → g.hold.endTimer = some n ∨ ds ≤ n from before running
  clear running
  induction c with
  | refl => exact .inl
  | tail _ change ih => exact fun now => (change.endTimer now).elim ih .inr

/-- A timer other than the hold's end timer is the one before the event, or runs to a count still to come. -/
theorem Event.timerOf {s t : State} (h : Event s t) (range : SettingsInRange s) {e : Expiry} (other : e ≠ .holdEnd) {n : Nat}
    (running : t.timerOf e = some n) : s.timerOf e = some n ∨ s.ds < n := by
  obtain ⟨alloc, interval, guard, -, tanks, gauges⟩ := (settingsInRange_iff s).1 range
  obtain ⟨filter, blank, off⟩ := h.guard.tripTimers guard
  cases e with
  | stale i =>
    rw [State.timerOf_stale] at running ⊢
    exact (h.slot i).staleTimer (tanks i) running
  | dryGap k => exact (h.gauge k).dryTimer (gauges k) running
  | evaluation => exact h.alerts.evalTimer interval running
  | floor k => exact (h.catchment k).floorTimer running
  | settle => exact h.alloc.settleTimer alloc running
  | period => exact h.alloc.periodTimer alloc running
  | filter => exact filter n running
  | blank => exact blank n running
  | off => exact off n running
  | holdEnd => exact absurd rfl other

/-- The count stands at every event but reset, which puts it at 0. -/
theorem Event.ds_le {s t : State} (h : Event s t) : t.ds ≤ s.ds := by
  cases h with
  | reset => exact Nat.zero_le _
  | trip move => exact move.ds.le
  | computes now =>
    cases now with
    | start | compute | promote => simp
  | zinh | setInhibit | stalls => simp [State.formInhibits]
  | talked | lineInReset | release | capSel | intake | mask | collect | clearNotices | readOrders | storeBank | restartPeriod | extend
    | startHold | moveHold | override | endHold => exact le_rfl
  | _ => simp

theorem Events.timerOf {s t : State} (h : Events s t) (range : SettingsInRange s) {e : Expiry} (other : e ≠ .holdEnd) {n : Nat}
    (running : t.timerOf e = some n) : s.timerOf e = some n ∨ t.ds < n := by
  suffices both : SettingsInRange t ∧ (t.timerOf e = some n → s.timerOf e = some n ∨ t.ds < n) from both.2 running
  clear running
  induction h with
  | refl => exact ⟨range, .inl⟩
  | tail _ event ih =>
    obtain ⟨ok, before⟩ := ih
    refine ⟨event.inRange ok, fun now => ?_⟩
    have count := event.ds_le
    rcases event.timerOf ok other now with same | later
    · exact (before same).imp_right fun later => by omega
    · exact .inr (by omega)

theorem Events.endTimer {s t : State} (h : Events s t) {n : Nat} (running : t.guard.hold.endTimer = some n) :
    s.guard.hold.endTimer = some n ∨ t.ds ≤ n := by
  suffices before : t.guard.hold.endTimer = some n → s.guard.hold.endTimer = some n ∨ t.ds ≤ n from before running
  clear running
  induction h with
  | refl => exact .inl
  | tail _ event ih =>
    intro now
    have count := event.ds_le
    rcases event.guard.endTimer now with same | later
    · exact (ih same).imp_right fun later => by omega
    · exact .inr (by omega)

theorem Events.ds_le {s t : State} (h : Events s t) : t.ds ≤ s.ds := by
  induction h with
  | refl => exact le_rfl
  | tail _ event ih => exact event.ds_le.trans ih

/-- A chain of events leaves no timer's expiry behind the count. -/
theorem Events.ahead {s t : State} (h : Events s t) (range : SettingsInRange s) (ahead : TimersAhead s) : TimersAhead t := by
  intro e n running
  have count := h.ds_le
  by_cases holds : e = .holdEnd
  · subst holds
    rcases h.endTimer running with same | later
    · exact count.trans (ahead .holdEnd n same)
    · exact later
  · rcases h.timerOf range holds running with same | later
    · exact count.trans (ahead e n same)
    · exact later.le

/-! ### The expiries -/

@[simp] theorem extraRun_ds (s : State) : (extraRun s).ds = s.ds := by
  rw [extraRun]
  split <;> simp

@[simp] theorem extraRun_guard (s : State) : (extraRun s).guard = s.guard := by
  rw [extraRun]
  split <;> simp

@[simp] theorem enterArmed_ds (s : State) : (enterArmed s).ds = s.ds :=
  TripMoves.keeps (f := State.ds) (fun move => move.ds) (enterArmed_moves s)

/-- Entry into ARMED leaves no blank timer. -/
theorem enterArmed_blankTimer (s : State) : (enterArmed s).guard.trip.blankTimer = none := by
  rw [enterArmed, startFilter]
  split_ifs
  · rw [enterTripped_guard]
    rfl
  · rfl
  · rfl

@[simp] theorem enterArmed_hold (s : State) : (enterArmed s).guard.hold = s.guard.hold :=
  TripMoves.keeps (f := fun s => s.guard.hold) (fun move => move.guard_hold) (enterArmed_moves s)

/-- An expiry leaves the count, and one other than the end of a hold leaves the hold. -/
theorem expiryEvent_frame (e : Expiry) (s : State) :
    (expiryEvent e s).ds = s.ds ∧ (e ≠ .holdEnd → (expiryEvent e s).guard.hold = s.guard.hold) := by
  have idle {p : Prop} : s.ds = s.ds ∧ (p → s.guard.hold = s.guard.hold) := ⟨rfl, fun _ => rfl⟩
  cases e with
  | stale i =>
    rw [expiryEvent, staleEvent]
    split
    · exact idle
    · split
      · dsimp only
        split <;> simp
      · exact idle
  | dryGap k =>
    rw [expiryEvent, dryGapEvent]
    split
    · exact idle
    · split
      · simp
      · exact idle
  | evaluation =>
    by_cases h : due s.alerts.evalTimer s.ds = true
    · rw [expiryEvent, evaluationEvent_of_due h]
      simp
    · rw [expiryEvent, evaluationEvent, if_neg h]
      exact idle
  | floor k =>
    rw [expiryEvent, floorEvent]
    split
    · exact idle
    · split
      · simp
      · exact idle
  | settle =>
    rw [expiryEvent, settleEvent]
    split
    · simp
    · exact idle
  | period =>
    by_cases h : (s.alloc.running && due s.alloc.periodTimer s.ds) = true
    · rw [expiryEvent, runEvent_of_due h]
      simp
    · rw [expiryEvent, runEvent, if_neg h]
      exact idle
  | filter =>
    rw [expiryEvent, filterEvent]
    split
    · split
      · simp
      · exact idle
    · exact idle
    · exact idle
  | blank =>
    rw [expiryEvent, blankEvent]
    split
    · split
      · simp
      · exact idle
    · exact idle
    · exact idle
  | off =>
    rw [expiryEvent, offEvent]
    split
    · split
      · split
        · exact idle
        · simp
      · exact idle
    · exact idle
    · exact idle
  | holdEnd =>
    rw [expiryEvent, holdEndEvent]
    split
    · split
      · split <;> simp
      · exact idle
    · exact idle
    · exact idle

/-- The run restarts the period timer. -/
theorem runEvent_periodTimer {s : State} (h : (s.alloc.running && due s.alloc.periodTimer s.ds) = true) :
    (runEvent s).alloc.periodTimer = startTimer s.ds s.alloc.period := by
  rw [runEvent_of_due h]
  simp [stallStage]

/-- The stale expiry restarts the stale timer (R38). -/
theorem staleEvent_staleTimer {s : State} {i : Fin 32} {t : Tank} {v : Service} (present : s.serviceAt i = some (t, v))
    (waiting : due v.level.staleTimer s.ds = true) :
    ((staleEvent i s).slot i).staleTimer = startTimer s.ds t.defn.reportTimeout := by
  simp only [staleEvent, present, waiting, if_true]
  split
  · rw [State.withdraw_slot, if_pos (by simp), Slot.withdrawn_staleTimer, State.postTank, State.postTanks_slot,
      State.setTank_slot_self]
    rfl
  · rw [State.postTank, State.postTanks_slot, State.setTank_slot_self]
    rfl

/-- After the end expiry of a hold its end timer is stopped, or runs to a count still to come (R152). -/
theorem holdEndEvent_endTimer {s : State} {n : Nat} (running : (holdEndEvent s).guard.hold.endTimer = some n) : s.ds < n := by
  cases hold : s.guard.hold with
  | held start limit stop timer =>
    simp only [holdEndEvent, hold] at running
    split at running
    · split at running <;> simp [Hold.endTimer] at running
    · next early =>
      rw [hold] at running
      have := Option.some.inj running
      omega
  | noHold | overridden _ _ => simp [holdEndEvent, hold, Hold.endTimer] at running

/-- An expiry that is taken leaves its timer stopped, or running to a count still to come. -/
theorem expiryEvent_taken {e : Expiry} {s : State} (range : SettingsInRange s) (timers : TimersLawful s)
    {n : Nat} (running : (expiryEvent e s).timerOf e = some n) : s.ds < n := by
  obtain ⟨alloc, interval, guard, -, tanks, gauges⟩ := (settingsInRange_iff s).1 range
  by_contra late
  have late : n ≤ s.ds := Nat.le_of_not_lt late
  have events := expiryEvent_events e s
  by_cases holds : e = .holdEnd
  · subst holds
    exact absurd late (Nat.not_le_of_lt (holdEndEvent_endTimer running))
  have before : s.timerOf e = some n := by
    rcases events.timerOf range holds running with same | later
    · exact same
    · rw [(expiryEvent_frame e s).1] at later
      omega
  have waiting : due (s.timerOf e) s.ds = true := (due_iff _ _).2 ⟨n, before, late⟩
  cases e with
  | holdEnd => exact absurd rfl holds
  | stale i =>
    obtain ⟨⟨t, v⟩, present, timer⟩ := Option.bind_eq_some_iff.1 before
    obtain ⟨⟨long, -⟩, -⟩ := tanks i t (State.serviceAt_eq_some.1 present).1
    rw [expiryEvent, State.timerOf_stale, staleEvent_staleTimer present ((due_iff _ _).2 ⟨n, timer, late⟩)] at running
    have := startTimer_later (by omega) running
    omega
  | dryGap k =>
    obtain ⟨g, defined, timer⟩ := Option.bind_eq_some_iff.1 before
    have ended : (dryGapEvent k s).gauges[k] = some g.endStorm := by
      simp only [dryGapEvent, defined, (due_iff _ _).2 ⟨n, timer, late⟩, if_true]
      exact State.setGauge_gauges_self s k _
    rw [expiryEvent, State.timerOf, ended] at running
    simp [Gauge.endStorm] at running
  | evaluation =>
    obtain ⟨long, -⟩ := interval
    rw [expiryEvent, evaluationEvent_of_due waiting] at running
    have := startTimer_later (by omega) running
    omega
  | floor k =>
    obtain ⟨c, defined, timer⟩ := Option.bind_eq_some_iff.1 before
    obtain ⟨f, present, rfl⟩ := Option.map_eq_some_iff.1 timer
    have removed : ((floorEvent k s).catchments[k]).bind (fun c => c.floor.map Floor.timer) = none := by
      simp only [floorEvent, defined, Catchment.floorDue, present, late, decide_true, if_true, State.reformCatchment_catchments]
      rw [State.setCatchment_catchments_self, Option.bind_some, Catchment.formEffective_floor]
      rfl
    rw [expiryEvent, State.timerOf, removed] at running
    simp at running
  | settle =>
    have stopped : (settleEvent s).alloc.settleTimer = none := by
      rw [State.timerOf] at waiting
      rw [settleEvent, if_pos waiting]
      simp
    rw [expiryEvent, State.timerOf, stopped] at running
    simp at running
  | period =>
    obtain ⟨⟨long, -⟩, -⟩ := alloc
    have on : s.alloc.running = true := timers.1.1 (isSome_of_due waiting)
    have due' : (s.alloc.running && due s.alloc.periodTimer s.ds) = true := by rw [on, Bool.true_and]; exact waiting
    rw [expiryEvent, State.timerOf, runEvent_periodTimer due'] at running
    have := startTimer_later (by omega) running
    omega
  | filter =>
    cases trip : s.guard.trip with
    | armed f =>
      have gone : (filterEvent s).guard.trip.filterTimer = none := by
        have ended : due f s.ds = true := by simpa [State.timerOf, trip, Trip.filterTimer] using waiting
        simp only [filterEvent, trip]
        rw [if_pos ended, enterTripped_guard]
        rfl
      rw [expiryEvent, State.timerOf, gone] at running
      simp at running
    | blanked _ | tripped _ => simp [State.timerOf, trip, Trip.filterTimer] at before
  | blank =>
    cases trip : s.guard.trip with
    | blanked expiry =>
      obtain rfl : expiry = n := by simpa [State.timerOf, trip, Trip.blankTimer] using before
      have gone : (blankEvent s).guard.trip.blankTimer = none := by
        simp only [blankEvent, trip]
        rw [if_pos late]
        exact enterArmed_blankTimer s
      rw [expiryEvent, State.timerOf, gone] at running
      simp at running
    | armed _ | tripped _ => simp [State.timerOf, trip, Trip.blankTimer] at before
  | off =>
    cases trip : s.guard.trip with
    | tripped expiry =>
      obtain rfl : expiry = n := by simpa [State.timerOf, trip, Trip.offTimer] using before
      obtain ⟨-, -, ⟨long, -⟩, -⟩ := guard
      simp only [expiryEvent, State.timerOf, offEvent, trip, late, if_true] at running
      split at running
      · have := startTimer_later (by omega) running
        omega
      · rw [extraRun_guard] at running
        simp [Trip.offTimer] at running
    | armed _ | blanked _ => simp [State.timerOf, trip, Trip.offTimer] at before

/-! ### The tick -/

/-- After the expiries of a list are taken, every timer that may still be behind the count is one that was not in the list. -/
theorem expiries_later (order : List Expiry) {s : State} (range : SettingsInRange s) (timers : TimersLawful s) (lawful : Kept TimersLawful)
    (before : ∀ e n, s.timerOf e = some n → s.ds < n ∨ e ∈ order) :
    ∀ e n, (order.foldl (fun t e => expiryEvent e t) s).timerOf e = some n → s.ds < n := by
  induction order generalizing s with
  | nil => exact fun e n running => (before e n running).resolve_right (List.not_mem_nil)
  | cons a rest ih =>
    have events := expiryEvent_events a s
    obtain ⟨count, hold⟩ := expiryEvent_frame a s
    intro e n running
    rw [← count]
    refine ih (settingsInRange_kept.events events range) (lawful.events events timers) ?_ e n running
    intro e n running
    rw [count]
    by_cases taken : e = a
    · subst taken
      exact .inl (expiryEvent_taken range timers running)
    · have kept : s.timerOf e = some n ∨ s.ds < n := by
        by_cases holds : e = .holdEnd
        · subst holds
          rw [State.timerOf, hold fun h => taken h.symm] at running
          exact .inl running
        · rw [← count]
          exact events.timerOf range holds running
      rcases kept with same | later
      · rcases before e n same with later | waiting
        · exact .inl later
        · exact .inr ((List.mem_cons.1 waiting).resolve_left taken)
      · exact .inl later

/-! ### The timers that must run (R82, R98, R107) -/

/-- An event leaves RESET_N and the running of the evaluation timer as they are, or it is reset or the release. -/
theorem Event.awake {s t : State} (h : Event s t) :
    t.resetAsserted = s.resetAsserted ∧ t.alerts.evalTimer.isSome = s.alerts.evalTimer.isSome ∨
      t = resetState s ∨ t.resetAsserted = false ∧ t.alerts.evalTimer.isSome := by
  cases h with
  | reset => exact .inr (.inl rfl)
  | release => exact .inr (.inr ⟨rfl, rfl⟩)
  | evaluate running => exact .inl ⟨by simp, running.symm⟩
  | trip move => exact .inl ⟨move.resetAsserted, by rw [move.alerts]⟩
  | computes now =>
    cases now with
    | start | compute | promote => exact .inl ⟨by simp, by simp⟩
  | zinh | setInhibit | stalls => exact .inl ⟨by simp [State.formInhibits], by simp [State.formInhibits]⟩
  | talked | lineInReset | capSel | intake | mask | collect | clearNotices | readOrders | storeBank | restartPeriod | extend
    | startHold | moveHold | override | endHold => exact .inl ⟨rfl, rfl⟩
  | forecast | floorExpiry => exact .inl ⟨by simp, by simp [State.reformCatchment]⟩
  | clearBlocks => exact .inl ⟨by simp, by simp [Machine.clearBlocks, clearCatchments, clearGauges]⟩
  | _ => exact .inl ⟨by simp, by simp⟩

theorem AllocChange.periodRuns {ds : Nat} {reset : Bool} {a b : Allocator} (h : AllocChange ds reset a b)
    (ha : a.periodTimer.isSome ↔ a.running = true) : b.periodTimer.isSome ↔ b.running = true := by
  cases h with
  | reset | stopped => simp [Allocator.atReset]
  | started => simp [startTimer]
  | restarted running => simp [startTimer, running]
  | _ => exact ha

theorem timersLawful_kept : Kept TimersLawful where
  event h hs := by
    refine ⟨h.alloc.periodRuns hs.1, ?_⟩
    rcases h.awake with ⟨reset, timer⟩ | reset | ⟨reset, timer⟩
    · rw [reset, timer]
      exact hs.2
    · simp [reset, resetState, State.held, Alerts.atReset]
    · simp [reset, timer]
  count _ _ hs := hs

/-- The tick leaves no timer's expiry behind the count: what the count has reached is taken before it advances. -/
theorem tickEvent_ahead {s : State} (range : SettingsInRange s) (timers : TimersLawful s) : TimersAhead (tickEvent s) := by
  intro e n running
  have later : s.ds < n := by
    refine expiries_later s.expiryOrder range timers timersLawful_kept (fun e n running => ?_) e n running
    by_cases reached : n ≤ s.ds
    · exact .inr ((s.expiryOrder_perm.mem_iff).2 (State.mem_waiting.2 ⟨n, running, reached⟩))
    · exact .inl (Nat.lt_of_not_le reached)
  exact (Nat.min_le_right _ _).trans later

/-- Settles O59: the settings are kept in range event by event; a timer is started only for a count still to come, and the tick takes
what the count has reached. -/
theorem expiriesComeInTime : Obligations.ExpiriesComeInTime := by
  intro s t h
  refine ⟨settingsInRange_kept.step h, fun range timers ahead => ?_⟩
  rcases step_events h with events | ⟨q, -, rfl⟩
  · exact events.ahead range ahead
  · exact tickEvent_ahead range timers

end Sys2Proof.Machine
end

section
/-! PROOFS. The laws of the rain side, the references between records, the counters and the levels (R24, R33, R46, R50, R62, R74, R86, R89,
R95, R159, R173). -/

namespace Sys2Proof.Machine

/-! ### Storms (R62) -/

/-- The storm fields agree with the storm state. -/
def Gauge.stormOk (g : Gauge) : Prop :=
  (g.storm = .dry → g.stormDepth = 0 ∧ g.tips = 0 ∧ g.interval = none ∧ g.tipDepth = none ∧ g.dryTimer = none) ∧
    (g.storm = .wet → 1 ≤ g.tips ∧ g.tipDepth.isSome ∧ g.lastTip.isSome ∧ g.dryTimer.isSome)

theorem GaugeChange.stormOk {ds : Nat} {g h : Option Gauge} (c : GaugeChange ds g h) (hg : ∀ u, g = some u → u.stormOk) :
    ∀ u, h = some u → u.stormOk := by
  intro u hu
  cases c with
  | same => exact hg u hu
  | gone => simp at hu
  | fresh =>
    obtain rfl := Option.some.inj hu
    simp [Gauge.stormOk, Gauge.fresh]
  | redefined ok g =>
    obtain rfl := Option.some.inj hu
    exact hg g rfl
  | tip g =>
    obtain rfl := Option.some.inj hu
    obtain ⟨-, wet⟩ := hg g rfl
    rw [Gauge.tip]
    split
    · simp [Gauge.stormOk, startTimer]
    · next storm =>
      obtain ⟨tips, -⟩ := wet storm
      simp only [Gauge.stormOk, storm, startTimer, satAdd, max16, Option.isSome_some, reduceCtorEq, false_implies, true_implies,
        and_true, true_and]
      omega
  | endStorm g =>
    obtain rfl := Option.some.inj hu
    simp [Gauge.stormOk, Gauge.endStorm]

theorem stormsLawful_kept : Kept StormsLawful where
  event h hs k := (h.gauge k).stormOk (hs k)
  count _ _ hs := hs

/-! ### Alert levels (R86, R89) -/

/-- The effective level is the greater of the gauge-derived level and the floor, and there is no hold-down at NONE. -/
def Catchment.levelsOk (c : Catchment) : Prop :=
  c.effective.code = max c.gaugeLevel.code ((c.floor.map fun f => f.level.code).getD 0) ∧
    (c.gaugeLevel = .noAlert → c.holdStart = none)

theorem Catchment.nextGaugeLevel_holdStart (now intensity depth : Nat) (c : Catchment)
    (h : (c.nextGaugeLevel now intensity depth).1 = .noAlert) : (c.nextGaugeLevel now intensity depth).2 = none := by
  revert h
  simp only [nextGaugeLevel]
  split
  · exact fun _ => rfl
  · split
    · exact fun _ => rfl
    · next alert =>
      split
      · split
        · exact fun level => absurd level alert
        · split
          · exact fun lowered => if_pos lowered
          · exact fun level => absurd level alert
      · exact fun level => absurd level alert

theorem CatchmentChange.levelsOk {s : State} {c d : Option Catchment} (h : CatchmentChange s c d)
    (hc : ∀ u, c = some u → u.levelsOk) : ∀ u, d = some u → u.levelsOk := by
  intro u hu
  cases h with
  | same => exact hc u hu
  | gone => simp at hu
  | fresh | cleared =>
    obtain rfl := Option.some.inj hu
    simp [Catchment.levelsOk, Catchment.fresh, AlertLevel.code]
  | redefined _ c | acknowledged c =>
    obtain rfl := Option.some.inj hu
    exact hc c rfl
  | evaluated intensity depth c =>
    obtain ⟨levels, -, effective⟩ := Catchment.evaluate_levels (Option.some.inj hu).symm
    obtain ⟨level, hold⟩ := Prod.mk.inj levels
    refine ⟨effective, fun none => ?_⟩
    rw [hold]
    exact c.nextGaugeLevel_holdStart s.now intensity depth (level.symm.trans none)
  | formed _ c =>
    rename_i floor later
    obtain rfl := Option.some.inj hu
    obtain ⟨effective, level, hold, kept⟩ := Catchment.formEffective_levels s.now { c with floor := floor }
    refine ⟨?_, fun none => ?_⟩
    · rw [effective, Catchment.formedLevel_code, level, kept]
    · obtain ⟨-, absent⟩ := hc c rfl
      rw [hold]
      exact absent (level.symm.trans none)

theorem alertsLawful_kept : Kept AlertsLawful where
  event h hs k := (h.catchment k).levelsOk (hs k)
  count _ _ hs := hs

/-! ### Counters (R159, R173) -/

/-- The five counters are within their maxima, and counted_events does not exceed spills_begun. -/
def SpillCounters.lawful (c : SpillCounters) : Prop :=
  c.counted ≤ c.begun ∧ c.begun ≤ 65535 ∧ c.seconds ≤ 4294967295 ∧ c.litres < 2 ^ 48 ∧ c.restricted ≤ 65535

section
variable {b : SpillBook}

theorem SpillBook.close_lawful (mark : CloseMark) (stop : Nat) (e : SpillEvent) (h : b.counters.lawful) :
    (b.close mark stop e).counters.lawful := by
  obtain ⟨counted, begun, -, -, restricted⟩ := h
  refine ⟨counted, begun, Nat.min_le_left _ _, Nat.lt_of_le_of_lt (Nat.min_le_left _ _) (by decide), ?_⟩
  simp only [SpillBook.close]
  split
  · exact Nat.min_le_left _ _
  · exact restricted

theorem openEvent_lawful (hours : Nat) (restricted : Bool) (alert : AlertLevel) (c : Candidate) (h : b.counters.lawful) :
    (openEvent hours restricted alert c b).book.counters.lawful := by
  obtain ⟨counted, begun, rest⟩ := h
  refine ⟨?_, Nat.min_le_left _ _, rest⟩
  simp only [openEvent, satAdd, max16]
  split <;> omega

theorem confirm_lawful (d : TankDef) (hours : Nat) (restricted : Bool) (alert : AlertLevel) (report : Nat) (c : Candidate)
    (h : b.counters.lawful) : (confirm d hours restricted alert report c b).book.counters.lawful := by
  rw [confirm]
  split
  · exact openEvent_lawful hours restricted alert c h
  · exact h

theorem quietRun_lawful (d : TankDef) (level report : Nat) (e : SpillEvent) (h : b.counters.lawful) :
    (quietRun d level report e b).book.counters.lawful := by
  rw [quietRun]
  split
  · split
    · exact h
    · split
      · exact SpillBook.close_lawful _ _ _ h
      · exact h
  · exact h

theorem spillReport_lawful (d : TankDef) (rating : List Point) (hours : Nat) (restricted : Bool) (alert : AlertLevel)
    (level report : Nat) (spilling : Spilling) (h : b.counters.lawful) :
    (spillReport d rating hours restricted alert level report spilling b).book.counters.lawful := by
  cases spilling with
  | event e => exact quietRun_lawful _ _ _ _ h
  | candidate c =>
    simp only [spillReport]
    split
    · exact h
    · exact confirm_lawful _ _ _ _ _ _ h
  | quiet =>
    simp only [spillReport]
    split
    · exact h
    · exact confirm_lawful _ _ _ _ _ _ h

theorem closeAtLastReport_lawful (mark : CloseMark) (v : Service) (h : b.counters.lawful) :
    (closeAtLastReport mark v b).book.counters.lawful := by
  rw [closeAtLastReport]
  split
  · exact SpillBook.close_lawful _ _ _ h
  · exact h
  · exact h

end

section
variable {x y : Slot}

/-- The counters of the tank of a slot are lawful. -/
def Slot.counted (x : Slot) : Prop :=
  ∀ t, x.tank = some t → t.book.counters.lawful

theorem Slot.counted_of_map {f : Tank → Tank} (h : x.counted) (tank : y.tank = x.tank.map f)
    (hf : ∀ t, t.book.counters.lawful → (f t).book.counters.lawful) : y.counted := by
  intro u hu
  rw [tank] at hu
  obtain ⟨t, ht, rfl⟩ := Option.map_eq_some_iff.1 hu
  exact hf t (h t ht)

theorem Slot.counted_of_tank {u : Tank} (tank : y.tank = some u) (h : u.book.counters.lawful) : y.counted := by
  intro w hw
  obtain rfl := Option.some.inj (tank.symm.trans hw)
  exact h

theorem Slot.withdrawn_counted (h : x.counted) : x.withdrawn.counted :=
  Slot.counted_of_map h rfl fun _ ht => ht

theorem SlotTrip.counted (h : SlotTrip x y) (hx : x.counted) : y.counted := by
  cases h with
  | leave => exact hx
  | enter => exact Slot.counted_of_map (Slot.counted_of_map (y := x.write 0 0) hx rfl fun _ ht => ht) rfl fun _ ht => ht
  | pass => exact Slot.counted_of_map hx rfl fun _ ht => ht

theorem SlotCompute.counted (h : SlotCompute x y) (hx : x.counted) : y.counted := by
  rw [Slot.counted, h.tank]
  exact hx

theorem SlotChange.counted {lines : Vector Bool 4} {now : State} {computes : Prop} (h : SlotChange lines now computes x y)
    (hx : x.counted) : y.counted := by
  cases h with
  | reset | retire => exact fun t ht => by simp at ht
  | create => exact Slot.counted_of_tank rfl (by simp [Tank.fresh, Tank.formInhibit, SpillBook.fresh, SpillCounters.lawful])
  | redefine _ _ defined | tables defined | place defined | mode defined | inhibit defined | stale defined | clearFault defined
    | stall defined => exact Slot.counted_of_tank rfl (hx _ defined :)
  | takeOffline defined => exact Slot.counted_of_tank rfl (closeAtLastReport_lawful _ _ (hx _ defined))
  | rise defined | latch defined => exact Slot.withdrawn_counted (Slot.counted_of_tank rfl (hx _ defined :))
  | report defined => exact Slot.counted_of_tank rfl (spillReport_lawful _ _ _ _ _ _ _ _ (hx _ defined))
  | lost defined =>
    exact Slot.withdrawn_counted (Slot.counted_of_tank rfl (closeAtLastReport_lawful _ _ (hx _ defined)))
  | counts =>
    refine Slot.counted_of_tank rfl ?_
    rw [Tank.resetCounts]
    split <;> simp [SpillCounters.lawful]
  | flag | imminent | cut => exact Slot.counted_of_map hx rfl fun _ ht => ht
  | seen | delist => exact hx
  | trip move => exact move.counted hx
  | compute _ computed => exact computed.counted hx
  | run _ moves computed =>
    exact computed.counted (SlotTrip.chain (P := Slot.counted) SlotTrip.counted moves
      (Slot.counted_of_map (y := x.promote) hx rfl fun _ ht => ht))
  | clear =>
    refine Slot.counted_of_map (Slot.withdrawn_counted hx) rfl fun t ht => ?_
    rw [Tank.clearState]
    split
    · exact ht
    · exact closeAtLastReport_lawful _ _ ht

end

theorem countersLawful_kept : Kept CountersLawful :=
  Kept.of_slots (P := Slot.counted) fun change => change.counted

/-! ### Levels and stall counters (R24, R33, R38, R46, R50) -/

/-- The level state within its bounds. -/
def LevelState.bounded (d : TankDef) (l : LevelState) : Prop :=
  (∀ n, l.lastLevel = some n → n ≤ 30000) ∧ (∀ e, l.netRate = some e → -65535 ≤ e ∧ e ≤ 65535) ∧ l.expiries ≤ d.lostLimit

/-- The supervisor state within its bounds, for an active order. -/
def Supervisor.bounded (d : TankDef) (active : Nat) (v : Supervisor) : Prop :=
  v.stallCounter ≤ d.stallCount ∧ v.goodCounter ≤ d.stallCount ∧ (active = 0 → v.snapshot = none)

/-- The service part within its bounds, for an active order. -/
def Service.bounded (d : TankDef) (active : Nat) (v : Service) : Prop :=
  v.level.bounded d ∧ v.supervisor.bounded d active

section
variable {d : TankDef} {t : Tank} {v : Service} {active : Nat}

theorem rateSample_bounds (volume previous seconds : Nat) :
    -65535 ≤ rateSample volume previous seconds ∧ rateSample volume previous seconds ≤ 65535 := by
  rw [rateSample]
  omega

/-- A report leaves the level clamped and the net rate within its bounds, since smoothing stays between the old rate and the sample. -/
theorem LevelState.report_bounded {l : LevelState} (threshold ds level report : Nat) (h : l.bounded d) :
    (l.report t threshold ds level report).bounded d := by
  obtain ⟨-, rates, -⟩ := h
  refine ⟨fun n hn => ?_, fun e he => ?_, Nat.zero_le _⟩
  · obtain rfl := Option.some.inj hn
    exact Nat.min_le_right _ _
  · simp only [LevelState.report, nextRate] at he
    split at he
    · exact rates e he
    · next p _ =>
      obtain rfl := Option.some.inj he
      have sample := rateSample_bounds (interpolate t.stagePoints (min level 30000)) p.volume (report - p.time)
      cases old : l.netRate with
      | none => exact sample
      | some e =>
        have before := rates e old
        have between := smoothRate_between e (rateSample (interpolate t.stagePoints (min level 30000)) p.volume (report - p.time))
        omega

theorem LevelState.expire_bounded {l : LevelState} (ds : Nat) (h : l.bounded d) : (l.expire d ds).bounded d := by
  obtain ⟨levels, rates, -⟩ := h
  exact ⟨levels, rates, Nat.min_le_left _ _⟩

theorem Supervisor.turn_bounded {v : Supervisor} {new : Nat} (changed : active ≠ new) (h : v.bounded d active) :
    (v.turn active new).bounded d new := by
  obtain ⟨stalls, goods, absent⟩ := h
  rw [turn]
  split_ifs with rises falls
  · exact ⟨Nat.zero_le _, Nat.zero_le _, fun _ => absent rises.1⟩
  · exact ⟨Nat.zero_le _, Nat.zero_le _, fun _ => rfl⟩
  · exact ⟨stalls, goods, fun zero => absurd (show active ≠ 0 ∧ new = 0 from ⟨zero ▸ changed, zero⟩) falls⟩

theorem Service.activeChange_bounded (new : Nat) (h : v.bounded d active) : (v.activeChange d active new).bounded d new := by
  obtain ⟨level, supervisor⟩ := h
  rw [activeChange]
  split
  · next same => exact same ▸ ⟨level, supervisor⟩
  · next changed => exact ⟨level, Supervisor.turn_bounded changed supervisor⟩

theorem Supervisor.evaluate_bounded {v : Supervisor} (level : Option Nat) (h : v.bounded d active) :
    (v.evaluate d level).1.bounded d active := by
  obtain ⟨stalls, goods, absent⟩ := h
  rw [evaluate]
  split
  · exact ⟨stalls, goods, absent⟩
  · dsimp only
    split_ifs <;> exact ⟨Nat.zero_le _, Nat.min_le_left _ _, absent⟩
  · dsimp only
    split_ifs <;> exact ⟨Nat.min_le_left _ _, Nat.zero_le _, absent⟩

theorem Service.afterStall_bounded (h : v.bounded d active) : (v.afterStall d active).bounded d active := by
  obtain ⟨level, supervisor⟩ := h
  refine ⟨level, ?_⟩
  rw [afterStall, evaluated]
  dsimp only
  split_ifs
  · exact Supervisor.evaluate_bounded _ supervisor
  · exact supervisor

theorem Service.takeSnapshot_bounded (h : v.bounded d active) : (v.takeSnapshot active).bounded d active := by
  obtain ⟨level, stalls, goods, absent⟩ := h
  rw [takeSnapshot]
  split
  · next ordered => exact ⟨level, stalls, goods, fun zero => absurd ordered (by omega)⟩
  · exact ⟨level, stalls, goods, absent⟩

theorem Service.fresh_bounded : Service.fresh.bounded d active := by
  simp [bounded, fresh, LevelState.bounded, LevelState.fresh, Supervisor.bounded, Supervisor.fresh]

end

/-- The service part of a tank within its bounds. -/
def Tank.bounded (active : Nat) (t : Tank) : Prop :=
  ∀ v, t.service = some v → v.bounded t.defn active

/-- The service part at a slot within its bounds. -/
def Slot.bounded (x : Slot) : Prop :=
  ∀ t, x.tank = some t → t.bounded x.order.active

section
variable {x y : Slot}

theorem levelsLawful_iff (s : State) : LevelsLawful s ↔ ∀ i, (s.slot i).bounded := by
  constructor
  · intro h i t ht v hv
    obtain ⟨levels, rates, expiries, stalls, goods, absent⟩ := h i (t, v) (State.serviceAt_of ht hv)
    exact ⟨⟨levels, rates, expiries⟩, stalls, goods, absent⟩
  · intro h i p hp
    obtain ⟨ht, hv⟩ := State.serviceAt_eq_some.1 hp
    obtain ⟨⟨levels, rates, expiries⟩, stalls, goods, absent⟩ := h i p.1 ht p.2 hv
    exact ⟨levels, rates, expiries, stalls, goods, absent⟩

theorem Tank.mapService_bounded {f : Service → Service} {t : Tank} {active : Nat} (new : Nat) (h : t.bounded active)
    (hf : ∀ v : Service, v.bounded t.defn active → (f v).bounded t.defn new) : (t.mapService f).bounded new := by
  intro w hw
  obtain ⟨v, hv, rfl⟩ := Option.map_eq_some_iff.1 hw
  exact hf v (h v hv)

theorem Slot.bounded_of_service {u : Tank} {w : Service} (tank : y.tank = some u) (present : u.service = some w)
    (h : w.bounded u.defn y.order.active) : y.bounded := by
  intro r hr v hv
  obtain rfl := Option.some.inj (tank.symm.trans hr)
  obtain rfl := Option.some.inj (present.symm.trans hv)
  exact h

theorem Slot.bounded_of_offline {u : Tank} (tank : y.tank = some u) (offline : u.service = none) : y.bounded := by
  intro r hr v hv
  obtain rfl := Option.some.inj (tank.symm.trans hr)
  simp [offline] at hv

/-- The record changes, but not its definition part and its service part. -/
theorem Slot.bounded_of_same {t u : Tank} (h : x.bounded) (defined : x.tank = some t) (tank : y.tank = some u)
    (defn : u.defn = t.defn) (service : u.service = t.service) (order : y.order.active = x.order.active) : y.bounded := by
  intro r hr v hv
  obtain rfl := Option.some.inj (tank.symm.trans hr)
  rw [defn, order]
  exact h t defined v (service ▸ hv)

theorem Slot.bounded_of_map {f : Service → Service} (h : x.bounded) (tank : y.tank = x.tank.map fun t => t.mapService f)
    (order : y.order.active = x.order.active) (hf : ∀ d v, v.bounded d x.order.active → (f v).bounded d x.order.active) :
    y.bounded := by
  intro r hr
  rw [tank] at hr
  obtain ⟨t, ht, rfl⟩ := Option.map_eq_some_iff.1 hr
  rw [order]
  exact Tank.mapService_bounded _ (h t ht) (hf t.defn)

theorem Slot.write_bounded (active next : Nat) (h : x.bounded) : (x.write active next).bounded := by
  intro u hu
  obtain ⟨t, ht, rfl⟩ := Option.map_eq_some_iff.1 hu
  rw [(x.write_order active next).1]
  exact Tank.mapService_bounded active (h t ht) fun v hv => Service.activeChange_bounded active hv

theorem Slot.withdrawn_bounded (h : x.bounded) : x.withdrawn.bounded :=
  x.write_bounded 0 0 h

theorem SlotTrip.bounded (h : SlotTrip x y) (hx : x.bounded) : y.bounded := by
  cases h with
  | leave => exact hx
  | enter => exact Slot.bounded_of_map (x.write_bounded 0 0 hx) rfl rfl fun _ _ hv => hv
  | pass => exact Slot.bounded_of_map hx rfl rfl fun _ _ hv => hv

theorem SlotCompute.bounded (h : SlotCompute x y) (hx : x.bounded) : y.bounded := by
  cases h with
  | idle => exact hx
  | served => exact hx

theorem Slot.promote_bounded (h : x.bounded) : x.promote.bounded := by
  intro u hu
  obtain ⟨t, ht, rfl⟩ := Option.map_eq_some_iff.1 hu
  rw [promote_order]
  have ordered : (t.mapService (Service.activeChange t.defn x.order.active x.promoted)).bounded x.promoted :=
    Tank.mapService_bounded x.promoted (h t ht) fun v hv => Service.activeChange_bounded x.promoted hv
  exact Tank.mapService_bounded x.promoted ordered fun v hv => Service.takeSnapshot_bounded hv

theorem SlotChange.bounded {lines : Vector Bool 4} {now : State} {computes : Prop} (h : SlotChange lines now computes x y)
    (hx : x.bounded) : y.bounded := by
  cases h with
  | reset | retire => exact fun t ht => by simp at ht
  | create => exact Slot.bounded_of_offline rfl rfl
  | redefine _ _ _ offline | tables _ offline => exact Slot.bounded_of_offline rfl offline
  | place => exact Slot.bounded_of_service rfl rfl Service.fresh_bounded
  | takeOffline => exact Slot.bounded_of_offline rfl rfl
  | mode defined | inhibit defined => exact Slot.bounded_of_same hx defined rfl rfl rfl rfl
  | rise defined =>
    refine Slot.withdrawn_bounded ?_
    exact Slot.bounded_of_same hx defined rfl rfl rfl rfl
  | @report t v defined present i ordered level report =>
    obtain ⟨levels, stalls, goods, absent⟩ := hx t defined v present
    exact Slot.bounded_of_service rfl rfl ⟨LevelState.report_bounded _ _ _ _ levels, stalls, goods, absent⟩
  | @stale t v defined present =>
    obtain ⟨levels, supervisor⟩ := hx t defined v present
    exact Slot.bounded_of_service rfl rfl ⟨LevelState.expire_bounded _ levels, supervisor⟩
  | @lost t v defined present =>
    obtain ⟨levels, stalls, goods, absent⟩ := hx t defined v present
    refine Slot.withdrawn_bounded ?_
    exact Slot.bounded_of_service rfl rfl ⟨LevelState.expire_bounded _ levels, stalls, goods, absent⟩
  | @clearFault t v defined present =>
    obtain ⟨levels, -, -, absent⟩ := hx t defined v present
    exact Slot.bounded_of_service rfl rfl ⟨levels, Nat.zero_le _, Nat.zero_le _, absent⟩
  | @stall t v defined present =>
    exact Slot.bounded_of_service rfl rfl (Service.afterStall_bounded (hx t defined v present))
  | @latch t v defined present =>
    refine Slot.withdrawn_bounded ?_
    exact Slot.bounded_of_service rfl rfl (Service.afterStall_bounded (hx t defined v present))
  | @counts t defined =>
    rw [Tank.resetCounts]
    split
    · intro u hu w hw
      obtain rfl := Option.some.inj hu
      obtain ⟨v, hv, rfl⟩ := Option.map_eq_some_iff.1 hw
      exact hx t defined v hv
    · exact Slot.bounded_of_same hx defined rfl rfl rfl rfl
  | flag => exact Slot.bounded_of_map hx rfl rfl fun _ _ hv => hv
  | imminent => exact Slot.bounded_of_map hx rfl rfl fun _ _ hv => hv
  | cut => exact Slot.write_bounded _ _ hx
  | seen | delist => exact hx
  | trip move => exact move.bounded hx
  | compute _ computed => exact computed.bounded hx
  | run _ moves computed =>
    exact computed.bounded (SlotTrip.chain (P := Slot.bounded) SlotTrip.bounded moves (Slot.promote_bounded hx))
  | clear =>
    intro u hu w hw
    obtain ⟨t, -, rfl⟩ := Option.map_eq_some_iff.1 hu
    rw [Tank.clearState] at hw ⊢
    split at hw
    · next offline => simp [Tank.formInhibit, offline] at hw
    · obtain rfl := Option.some.inj hw
      exact Service.fresh_bounded

end

theorem bounded_kept : Kept fun s => ∀ i, (s.slot i).bounded :=
  Kept.of_slots fun change => change.bounded

/-! ### References between records (R74, R95) -/

section
variable {s t : State}

/-- What an event leaves of the definition part of a tank: it stands, goes, or names a defined catchment. -/
theorem Event.defn (h : Event s t) (i : Fin 32) : (t.slot i).defn = (s.slot i).defn ∨ (t.slot i).defn = none ∨
    ∃ d, (t.slot i).defn = some d ∧ s.catchments[d.catchment].isSome := by
  have chain := h.slot i
  generalize t.slot i = y at chain
  induction chain with
  | refl => exact .inl rfl
  | tail _ change ih =>
    rcases change.defn with same | gone | ⟨c, z, f, -, named, defined⟩
    · rw [same]
      exact ih
    · exact .inr (.inl gone)
    · exact .inr (.inr ⟨_, defined, named⟩)

theorem catchments_stay_of_eq (h : t.catchments = s.catchments) (k : Fin 8) (defined : s.catchments[k].isSome) :
    t.catchments[k].isSome := by
  rwa [h]

theorem catchments_stay_of_set {j : Fin 8} {c : Catchment} (h : t.catchments = (s.setCatchment j (some c)).catchments) (k : Fin 8)
    (defined : s.catchments[k].isSome) : t.catchments[k].isSome := by
  rw [h]
  by_cases hk : k = j
  · subst hk
    rw [State.setCatchment_catchments_self]
    rfl
  · rwa [s.setCatchment_catchments_of_ne hk]

/-- A catchment that is defined stays so, but in reset, or where no tank names it. -/
theorem Event.catchments_stay (h : Event s t) : (∀ k : Fin 8, s.catchments[k].isSome → t.catchments[k].isSome) ∨
    t = resetState s ∨ ∃ k : Fin 8, s.tanksNaming k = 0 ∧ t.tanks = s.tanks ∧ t.gauges = s.gauges ∧
      t.catchments = (s.setCatchment k none).catchments := by
  cases h with
  | reset => exact .inr (.inl rfl)
  | retireCatchment unnamed => exact .inr (.inr ⟨_, unnamed, by simp, by simp, by simp⟩)
  | defineCatchment | redefineCatchment | acknowledge => exact .inl (catchments_stay_of_set rfl)
  | forecast | floorExpiry => exact .inl (catchments_stay_of_set (State.reformCatchment_catchments _ _ _ _))
  | evaluate =>
    refine .inl fun k defined => ?_
    have judged : (evaluateAll s).catchments[k] = (s.evaluated k).map CatchmentStep.catchment := by simp
    rw [judged, Option.isSome_map, State.evaluated, Option.isSome_map]
    exact defined
  | clearBlocks =>
    refine .inl fun k defined => ?_
    have cleared : (Machine.clearBlocks s).catchments[k] = (s.catchments[k]).map fun c => Catchment.fresh c.defn := by simp
    rw [cleared, Option.isSome_map]
    exact defined
  | trip move => exact .inl (catchments_stay_of_eq move.catchments)
  | computes now =>
    cases now with
    | start | compute | promote => exact .inl (catchments_stay_of_eq (by simp))
  | zinh | setInhibit | stalls => exact .inl (catchments_stay_of_eq (by simp [State.formInhibits]))
  | talked | lineInReset | release | capSel | intake | mask | collect | clearNotices | readOrders | storeBank | restartPeriod | extend
    | startHold | moveHold | override | endHold => exact .inl fun _ => id
  | _ => exact .inl (catchments_stay_of_eq (by simp))

theorem gauges_stay_of_set {j : Fin 12} {g : Gauge} (h : t.gauges = (s.setGauge j (some g)).gauges) (k : Fin 12)
    (defined : s.gauges[k].isSome) : t.gauges[k].isSome := by
  rw [h]
  by_cases hk : k = j
  · subst hk
    rw [State.setGauge_gauges_self]
    rfl
  · rwa [s.setGauge_gauges_of_ne hk]

theorem gauges_stay_of_eq (h : t.gauges = s.gauges) (k : Fin 12) (defined : s.gauges[k].isSome) : t.gauges[k].isSome := by
  rwa [h]

/-- A gauge that is defined stays so, but in reset, or where no catchment lists it. -/
theorem Event.gauges_stay (h : Event s t) : (∀ k : Fin 12, s.gauges[k].isSome → t.gauges[k].isSome) ∨
    t = resetState s ∨ ∃ k : Fin 12, s.gaugeListed k = false ∧ t.catchments = s.catchments ∧
      t.gauges = (s.setGauge k none).gauges := by
  cases h with
  | reset => exact .inr (.inl rfl)
  | retireGauge unlisted => exact .inr (.inr ⟨_, unlisted, rfl, rfl⟩)
  | defineGauge | redefineGauge | tip | endStorm => exact .inl (gauges_stay_of_set rfl)
  | clearBlocks =>
    refine .inl fun k defined => ?_
    have cleared : (Machine.clearBlocks s).gauges[k] = (s.gauges[k]).map Gauge.endStorm := by simp [clearBlocks_gauges]
    rw [cleared, Option.isSome_map]
    exact defined
  | trip move => exact .inl (gauges_stay_of_eq move.gauges)
  | computes now =>
    cases now with
    | start | compute | promote => exact .inl (gauges_stay_of_eq (by simp))
  | zinh | setInhibit | stalls => exact .inl (gauges_stay_of_eq (by simp [State.formInhibits]))
  | talked | lineInReset | release | capSel | intake | mask | collect | clearNotices | readOrders | storeBank | restartPeriod | extend
    | startHold | moveHold | override | endHold => exact .inl fun _ => id
  | _ => exact .inl (gauges_stay_of_eq (by simp))

/-- Where no tank names a catchment, every defined tank names another. -/
theorem State.catchment_ne_of_unnamed {k : Fin 8} (unnamed : s.tanksNaming k = 0) {i : Fin 32} {d : TankDef}
    (h : (s.slot i).defn = some d) : d.catchment ≠ k := by
  intro names
  obtain ⟨t, ht, rfl⟩ := Option.map_eq_some_iff.1 h
  have counted := le_sumTanks (fun i => if s.tankIs (fun t => t.defn.catchment == k) i then 1 else 0) i
  rw [State.tanksNaming] at unnamed
  have one : s.tankIs (fun t => t.defn.catchment == k) i = true := by rw [State.tankIs_of ht, beq_iff_eq, names]
  simp only [one, if_true, unnamed] at counted
  omega

theorem Catchment.formEffective_defn (now : Nat) (c : Catchment) : (c.formEffective now).catchment.defn = c.defn := by
  simp only [formEffective]
  split_ifs <;> rfl

theorem Catchment.evaluate_defn (now intensity depth : Nat) (c : Catchment) :
    (c.evaluate now intensity depth).catchment.defn = c.defn := by
  have keeps (d : Catchment) : (d.keepPeak intensity).defn = d.defn := by
    rw [keepPeak]
    split <;> rfl
  simp only [evaluate]
  split_ifs
  · rw [formEffective_defn]
  · rw [keeps, formEffective_defn]

/-- Where no catchment lists a gauge, every listed gauge is another. -/
theorem State.gauge_ne_of_unlisted {j : Fin 12} (unlisted : s.gaugeListed j = false) {k : Fin 8} {c : Catchment}
    (h : s.catchments[k] = some c) {g : Fin 12} (hg : g ∈ c.defn.gauges) : g ≠ j := by
  rintro rfl
  rw [gaugeListed, Vector.any_eq_false] at unlisted
  have free := unlisted k k.isLt
  simp only [Fin.getElem_fin] at h
  simp [h, hg] at free

/-- A change of a catchment's record keeps its definition, or lists defined gauges. -/
theorem CatchmentChange.gaugeList {c d : Option Catchment} (h : CatchmentChange s c d) {b : Catchment} (hb : d = some b) :
    (∃ a, c = some a ∧ b.defn = a.defn) ∨ ∀ g ∈ b.defn.gauges, s.gauges[g].isSome := by
  cases h with
  | same => exact .inl ⟨b, hb, rfl⟩
  | gone => simp at hb
  | fresh listed | redefined listed =>
    obtain rfl := Option.some.inj hb
    exact .inr listed
  | cleared c | acknowledged c =>
    obtain rfl := Option.some.inj hb
    exact .inl ⟨c, rfl, rfl⟩
  | evaluated intensity depth c =>
    obtain rfl := Option.some.inj hb
    exact .inl ⟨c, rfl, Catchment.evaluate_defn _ _ _ c⟩
  | formed _ c =>
    obtain rfl := Option.some.inj hb
    exact .inl ⟨c, rfl, Catchment.formEffective_defn _ _⟩

/-- Every event keeps the references between records. -/
theorem Event.named (h : Event s t) (hs : NamesDefined s) : NamesDefined t := by
  obtain ⟨tanks, gauges⟩ := hs
  have named : ∀ i d, (s.slot i).defn = some d → s.catchments[d.catchment].isSome := by
    intro i d hd
    obtain ⟨u, hu, rfl⟩ := Option.map_eq_some_iff.1 hd
    exact tanks i u hu
  constructor
  · intro i u hu
    have defn : (t.slot i).defn = some u.defn := congrArg (Option.map Tank.defn) hu
    rcases h.catchments_stay with stay | reset | ⟨k, unnamed, same, -, gone⟩
    · rcases h.defn i with kept | none | ⟨d, hd, defined⟩
      · exact stay _ (named i u.defn (kept ▸ defn))
      · simp [none] at defn
      · obtain rfl := Option.some.inj (hd.symm.trans defn)
        exact stay _ defined
    · simp [reset, resetState, State.held] at hu
    · have before : (s.slot i).defn = some u.defn := by
        rw [same] at hu
        exact congrArg (Option.map Tank.defn) hu
      rw [gone, s.setCatchment_catchments_of_ne (State.catchment_ne_of_unnamed unnamed before)]
      exact named i u.defn before
  · intro k c hc g hg
    have change := h.catchment k
    rcases h.gauges_stay with stay | reset | ⟨j, unlisted, same, gone⟩
    · rcases change.gaugeList hc with ⟨a, ha, defn⟩ | listed
      · exact stay g (gauges k a ha g (defn ▸ hg))
      · exact stay g (listed g hg)
    · simp [reset, resetState, State.held] at hc
    · rw [same] at hc
      rw [gone, s.setGauge_gauges_of_ne (State.gauge_ne_of_unlisted unlisted hc hg)]
      exact gauges k c hc g hg

end

/-- Settles O57, each law by what an event does to the record it speaks of. -/
theorem rainLawsAndBoundsKept : Obligations.RainLawsAndBoundsKept := by
  intro s t h
  refine ⟨stormsLawful_kept.step h, alertsLawful_kept.step h, Kept.step ⟨Event.named, fun _ _ hs => hs⟩ h,
    countersLawful_kept.step h, fun hs => ?_⟩
  rw [levelsLawful_iff] at hs ⊢
  exact bounded_kept.step h hs

end Sys2Proof.Machine
end

section
/-! PROOFS. The laws of the lines, the selection of a bank and the hold (R13, R94, R101 to R103, R140, R149, R185). -/

namespace Sys2Proof.Machine

/-! ### The selection of a bank (R101 to R103) -/

/-- B is the budget of the bank in force, and the settle timer runs exactly while the observed value is another. -/
def Allocator.selectionOk (a : Allocator) : Prop :=
  a.budget = a.banks[a.selected] ∧ (a.settleTimer.isSome ↔ a.observed ≠ a.selected)

theorem AllocChange.selectionOk {ds : Nat} {reset : Bool} {a b : Allocator} (h : AllocChange ds reset a b)
    (stopped : reset = true → a.settleTimer = none) (ha : a.selectionOk) : b.selectionOk := by
  obtain ⟨budget, settle⟩ := ha
  cases h with
  | reset => simp [Allocator.selectionOk, Allocator.atReset]
  | taken held => exact ⟨rfl, by simp [stopped held]⟩
  | seen _ n =>
    refine ⟨budget, ?_⟩
    dsimp only
    split
    · next same => simp [same]
    · next other => simp [startTimer, other]
  | stored other b =>
    refine ⟨budget.trans ?_, settle⟩
    have : ¬_ = _ := fun e => other (Fin.ext e)
    simp [this]
  | storedSelected => exact ⟨by simp, settle⟩
  | settled => exact ⟨rfl, by simp⟩
  | _ => exact ⟨budget, settle⟩

/-- In reset the settle timer stays stopped. -/
theorem AllocChange.settleTimer_of_reset {ds : Nat} {a b : Allocator} (h : AllocChange ds true a b) (ha : a.settleTimer = none) :
    b.settleTimer = none := by
  cases h with
  | reset => rfl
  | settled => rfl
  | seen released => simp at released
  | _ => exact ha

theorem selectionLawful_kept : Kept SelectionLawful where
  event {s t} h hs := by
    obtain ⟨budget, settle, stopped⟩ := hs
    obtain ⟨budget', settle'⟩ := h.alloc.selectionOk stopped ⟨budget, settle⟩
    refine ⟨budget', settle', fun held => ?_⟩
    rcases h.awake with ⟨reset, -⟩ | reset | ⟨reset, -⟩
    · have asserted : s.resetAsserted = true := reset.symm.trans held
      have change := h.alloc
      rw [asserted] at change
      exact change.settleTimer_of_reset (stopped asserted)
    · rw [reset]
      rfl
    · simp [reset] at held
  count _ _ hs := hs

/-! ### The hold (R149) -/

theorem GuardChange.holdOk {ds now : Nat} {g h : Guard} (c : GuardChange ds now g h)
    (hg : ∀ start limit stop timer, g.hold = .held start limit stop timer → start ≤ stop ∧ stop ≤ limit) :
    ∀ start limit stop timer, h.hold = .held start limit stop timer → start ≤ stop ∧ stop ≤ limit := by
  intro start limit stop timer held
  cases c with
  | reset | override | endHold => simp [Guard.atReset] at held
  | startHold short =>
    obtain ⟨rfl, rfl, rfl, -⟩ := Hold.held.inj held
    omega
  | moveHold before later within =>
    obtain ⟨rfl, rfl, rfl, -⟩ := Hold.held.inj held
    obtain ⟨first, last⟩ := hg _ _ _ _ before
    exact ⟨first.trans (later last), within⟩
  | _ => exact hg _ _ _ _ held

theorem holdLawful_kept : Kept HoldLawful where
  event {s t} h hs := by
    have changes := h.guard
    rw [HoldLawful]
    generalize t.guard = g at changes
    induction changes with
    | refl => exact hs
    | tail _ change ih => exact change.holdOk ih
  count _ _ hs := hs

/-! ### ATTN (R185) -/

theorem attnFollows_iff (n : Notices) : AttnFollows n ↔ n.attn = n.anyPending := by
  rw [AttnFollows, ← Notices.anyPending_iff]
  exact Bool.eq_iff_iff.symm

theorem attnFollows_settled (n : Notices) : AttnFollows n.settled :=
  (attnFollows_iff _).2 rfl

/-- The Notice Set stands, or ATTN has just been formed. -/
def NoticesFormed (s t : State) : Prop :=
  t.notices = s.notices ∨ ∃ n, t.notices = Notices.settled n

section
variable {s t : State}

theorem NoticesFormed.attnFollows (h : NoticesFormed s t) (hs : AttnFollows s.notices) : AttnFollows t.notices := by
  rcases h with same | ⟨n, formed⟩
  · rwa [same]
  · rw [formed]
    exact attnFollows_settled n

theorem computation_notices (s : State) : (computation s).notices =
    if s.alloc.budget < s.manualTotal then (s.postAllocation .budgetOverrun).notices else s.notices := by
  rw [computation_eq]

theorem computation_noticesFormed (s : State) : NoticesFormed s (computation s) := by
  rw [NoticesFormed, computation_notices]
  split
  · exact .inr ⟨_, rfl⟩
  · exact .inl rfl

theorem setBudget_noticesFormed (b : Nat) (s : State) : NoticesFormed s (setBudget b s) := by
  rw [setBudget_eq]
  split
  · rw [shed]
    split
    · exact .inr ⟨_, rfl⟩
    · exact .inl (by simp [State.putBudget])
  · exact .inl rfl

theorem TripMove.noticesFormed (h : TripMove s t) : NoticesFormed s t := by
  cases h with
  | armed | filtering | blanked => exact .inl rfl
  | tripped => exact .inr ⟨_, rfl⟩

theorem TripMoves.attnFollows (h : TripMoves s t) (hs : AttnFollows s.notices) : AttnFollows t.notices := by
  induction h with
  | refl => exact hs
  | tail _ move ih => exact move.noticesFormed.attnFollows ih

theorem State.writeSetting_noticesFormed (s : State) (n v : Nat) : NoticesFormed s (s.writeSetting n v) := by
  rw [State.writeSetting.eq_def]
  split
  case h_4 => exact .inr ⟨_, rfl⟩
  all_goals exact .inl rfl

theorem Event.attnFollows (h : Event s t) (hs : AttnFollows s.notices) : AttnFollows t.notices := by
  cases h with
  | reset => simp [AttnFollows, resetState, State.held, Notices.atReset]
  | setting n v => exact (s.writeSetting_noticesFormed n _).attnFollows hs
  | mask | release | capSel => exact hs
  | collect | clearNotices | dropTankNotices | postTank | postAllocation | stalls | evaluate | retireCatchment | forecast
    | floorExpiry => exact attnFollows_settled _
  | lost =>
    rw [State.withdraw_notices]
    exact attnFollows_settled _
  | storeSelectedBank | settle => exact (setBudget_noticesFormed _ _).attnFollows hs
  | computes now =>
    cases now with
    | start =>
      rw [State.startPeriod_notices]
      exact (computation_noticesFormed { s with alloc := { s.alloc with running := true } }).attnFollows hs
    | compute => exact (computation_noticesFormed s).attnFollows hs
    | promote =>
      refine (computation_noticesFormed _).attnFollows ((promotion_moves s).attnFollows ?_)
      rwa [promoteOrders_notices]
  | trip move => exact move.noticesFormed.attnFollows hs
  | zinh | setInhibit => simpa [State.formInhibits] using hs
  | _ => simpa using hs

/-! ### RAIN_ALERT (R94) -/

/-- RAIN_ALERT follows the catchments. -/
def RainFollows (s : State) : Prop :=
  s.alerts.rainAlert = formRainAlert s.catchments

theorem linesFollow_iff (s : State) : LinesFollow s ↔ AttnFollows s.notices ∧ RainFollows s := by
  rw [LinesFollow, ← formRainAlert_iff]
  exact and_congr Iff.rfl Bool.eq_iff_iff.symm

theorem RainFollows.of_eq (rain : t.alerts.rainAlert = s.alerts.rainAlert) (catchments : t.catchments = s.catchments)
    (h : RainFollows s) : RainFollows t := by
  rw [RainFollows, rain, catchments]
  exact h

theorem RainFollows.of_formed (u : State) : RainFollows u.formRainAlert := by
  rw [RainFollows, State.formRainAlert_alerts, State.formRainAlert_catchments]

/-- A catchment's record is written without a change of its effective level, where an absent one counts as NONE. -/
theorem RainFollows.of_set {k : Fin 8} {c : Catchment}
    (same : c.effective = ((s.catchments[k]).map Catchment.effective).getD .noAlert) (h : RainFollows s) :
    RainFollows (s.setCatchment k (some c)) := by
  rw [RainFollows, State.setCatchment_alerts, h, Bool.eq_iff_iff, formRainAlert_iff, formRainAlert_iff]
  refine exists_congr fun j => ?_
  by_cases hj : j = k
  · subst hj
    rw [State.setCatchment_catchments_self]
    cases hc : s.catchments[j] with
    | none => simp [hc, same]
    | some b => simp [hc, same]
  · rw [s.setCatchment_catchments_of_ne hj]

theorem Event.rainFollows (h : Event s t) (hs : RainFollows s) : RainFollows t := by
  cases h with
  | reset =>
    have none : formRainAlert (resetState s).catchments = false := by
      rw [← Bool.not_eq_true, formRainAlert_iff]
      simp [resetState, State.held]
    exact none.symm
  | defineCatchment _ undefined => exact hs.of_set (by rw [undefined]; rfl)
  | redefineCatchment _ defined | acknowledge defined => exact hs.of_set (by rw [defined]; rfl)
  | retireCatchment | forecast | floorExpiry | clearBlocks => exact .of_formed _
  | evaluate =>
    rw [RainFollows, evaluateAll]
    simp
  | setting n v => exact hs.of_eq (by simp) (by simp)
  | trip move => exact hs.of_eq (by rw [move.alerts]) move.catchments
  | computes now =>
    cases now with
    | start | compute | promote => exact hs.of_eq (by simp) (by simp)
  | zinh | setInhibit | stalls => exact hs.of_eq (by simp [State.formInhibits]) (by simp [State.formInhibits])
  | talked | lineInReset | release | capSel | intake | mask | collect | clearNotices | readOrders | storeBank | restartPeriod | extend
    | startHold | moveHold | override | endHold => exact hs
  | _ => exact hs.of_eq (by simp) (by simp)

end

/-! ### The lines as the part holds them (R13, R101, R140) -/

/-- The effective inhibit of the tank of a slot follows its zone line and soft flag. -/
def Slot.follows (lines : Vector Bool 4) (x : Slot) : Prop :=
  ∀ t, x.tank = some t → t.inhibited = formInhibit t.defn.combine lines[t.defn.zone] t.softInhibit

section
variable {lines : Vector Bool 4} {x y : Slot}

theorem Slot.follows_of_map {f : Tank → Tank} (h : x.follows lines) (tank : y.tank = x.tank.map f)
    (hf : ∀ t, (f t).inhibited = t.inhibited ∧ (f t).defn = t.defn ∧ (f t).softInhibit = t.softInhibit) : y.follows lines := by
  intro u hu
  rw [tank] at hu
  obtain ⟨t, ht, rfl⟩ := Option.map_eq_some_iff.1 hu
  obtain ⟨inhibited, defn, soft⟩ := hf t
  simpa only [inhibited, defn, soft] using h t ht

theorem Slot.follows_of_tank {u : Tank} (tank : y.tank = some u)
    (h : u.inhibited = formInhibit u.defn.combine lines[u.defn.zone] u.softInhibit) : y.follows lines := by
  intro w hw
  obtain rfl := Option.some.inj (tank.symm.trans hw)
  exact h

theorem Slot.withdrawn_follows (h : x.follows lines) : x.withdrawn.follows lines :=
  Slot.follows_of_map h rfl fun _ => ⟨rfl, rfl, rfl⟩

theorem SlotTrip.follows (h : SlotTrip x y) (hx : x.follows lines) : y.follows lines := by
  cases h with
  | leave => exact hx
  | enter =>
    exact Slot.follows_of_map (Slot.follows_of_map (y := x.write 0 0) hx rfl fun _ => ⟨rfl, rfl, rfl⟩) rfl fun _ => ⟨rfl, rfl, rfl⟩
  | pass => exact Slot.follows_of_map hx rfl fun _ => ⟨rfl, rfl, rfl⟩

theorem SlotCompute.follows (h : SlotCompute x y) (hx : x.follows lines) : y.follows lines := by
  rw [Slot.follows, h.tank]
  exact hx

theorem SlotChange.follows {now : State} {computes : Prop} (h : SlotChange lines now computes x y) (hx : x.follows lines) :
    y.follows lines := by
  cases h with
  | reset | retire => exact fun t ht => by simp at ht
  | create | redefine => exact Slot.follows_of_tank rfl rfl
  | inhibit => exact Slot.follows_of_tank rfl rfl
  | rise => exact Slot.withdrawn_follows (Slot.follows_of_tank rfl rfl)
  | tables defined | place defined | mode defined | report defined | stale defined | clearFault defined | stall defined =>
    exact Slot.follows_of_tank rfl (hx _ defined :)
  | takeOffline defined => exact Slot.follows_of_tank rfl (hx _ defined :)
  | lost defined | latch defined => exact Slot.withdrawn_follows (Slot.follows_of_tank rfl (hx _ defined :))
  | counts defined =>
    have known := hx _ defined
    refine Slot.follows_of_tank rfl ?_
    rw [Tank.resetCounts]
    split <;> exact known
  | flag | imminent | cut => exact Slot.follows_of_map hx rfl fun _ => ⟨rfl, rfl, rfl⟩
  | seen | delist => exact hx
  | trip move => exact move.follows hx
  | compute _ computed => exact computed.follows hx
  | run _ moves computed =>
    exact computed.follows (SlotTrip.chain (P := Slot.follows lines) SlotTrip.follows moves
      (Slot.follows_of_map (y := x.promote) hx rfl fun _ => ⟨rfl, rfl, rfl⟩))
  | clear =>
    intro u hu
    obtain ⟨t, -, rfl⟩ := Option.map_eq_some_iff.1 hu
    rw [Tank.clearState]
    split <;> rfl

/-- In reset no tank is created. -/
theorem SlotChange.undefined {now : State} {computes : Prop} (h : SlotChange lines now computes x y)
    (held : now.resetAsserted = true) (hx : x.tank = none) : y.tank = none := by
  cases h with
  | create _ _ released => simp [held] at released
  | redefine _ _ defined | tables defined | place defined | takeOffline defined | mode defined | inhibit defined | rise defined
    | report defined | stale defined | lost defined | clearFault defined | stall defined | latch defined | counts defined =>
    simp [hx] at defined
  | reset | retire => rfl
  | flag | imminent | cut => exact congrArg (Option.map _) hx
  | seen | delist => exact hx
  | trip move => exact Option.map_eq_none_iff.1 (move.defn.trans (congrArg (Option.map _) hx))
  | compute _ computed => exact computed.tank.trans hx
  | run _ moves computed =>
    have promoted : x.promote.defn = none := congrArg (Option.map _) (congrArg (Option.map _) hx)
    have moved := SlotTrip.chain (P := fun z => z.defn = none) (fun move same => move.defn.trans same) moves promoted
    exact computed.tank.trans (Option.map_eq_none_iff.1 moved)
  | clear => exact congrArg (Option.map _) (congrArg (Option.map _) hx)

end

section
variable {s t : State}

/-- What an event does to the ZINH lines: they stand, one changes, or the part is in reset. -/
theorem Event.zinhLines (h : Event s t) : t.pins.zinh = s.pins.zinh ∨ s.resetAsserted = true ∨
    ∃ z level, t = zinhEvent z { s with pins := { s.pins with zinh := s.pins.zinh.set z level } } := by
  cases h with
  | zinh z level => exact .inr (.inr ⟨z, level, rfl⟩)
  | lineInReset held => exact .inr (.inl held)
  | trip move => exact .inl (by rw [move.pins])
  | computes now =>
    cases now with
    | start | compute | promote => exact .inl (by simp)
  | setInhibit | stalls => exact .inl (by simp [State.formInhibits])
  | talked | release | capSel | intake | mask | collect | clearNotices | readOrders | storeBank | restartPeriod | extend | startHold
    | moveHold | override | endHold | reset => exact .inl rfl
  | _ => exact .inl (by simp)

/-- The other lines after an event: the observed value is formed anew, or it stands with the lines, or the part is in reset. -/
theorem Event.capSelLines (h : Event s t) : t.resetAsserted = true ∨ t.alloc.observed = capSelNumber t.pins.capSel ∨
    t.resetAsserted = s.resetAsserted ∧ t.alloc.observed = s.alloc.observed ∧ t.pins.capSel = s.pins.capSel := by
  cases h with
  | reset => exact .inl rfl
  | lineInReset held => exact .inl held
  | release | capSel => exact .inr (.inl rfl)
  | trip move => exact .inr (.inr ⟨move.resetAsserted, by rw [move.alloc], by rw [move.pins]⟩)
  | computes now =>
    cases now with
    | start | compute | promote => exact .inr (.inr ⟨by simp, by simp, by simp⟩)
  | zinh | setInhibit => exact .inr (.inr ⟨by simp [State.formInhibits], by simp [zinhEvent, State.formInhibits], by simp [State.formInhibits]⟩)
  | stalls => exact .inr (.inr ⟨by simp, by simp [stallStage], by simp⟩)
  | talked | intake | mask | collect | clearNotices | readOrders | storeBank | restartPeriod | extend | startHold
    | moveHold | override | endHold => exact .inr (.inr ⟨rfl, rfl, rfl⟩)
  | _ => exact .inr (.inr ⟨by simp, by simp, by simp⟩)

/-- The line level after an event: it is that of the line, or both stand, or the part is in reset. -/
theorem Event.intakeLine (h : Event s t) : t.resetAsserted = true ∨ t.guard.lineHigh = t.pins.intakeHigh ∨
    t.resetAsserted = s.resetAsserted ∧ t.guard.lineHigh = s.guard.lineHigh ∧ t.pins.intakeHigh = s.pins.intakeHigh := by
  cases h with
  | reset => exact .inl rfl
  | lineInReset held => exact .inl held
  | release | intake => exact .inr (.inl rfl)
  | trip move => exact .inr (.inr ⟨move.resetAsserted, move.guard_lineHigh, by rw [move.pins]⟩)
  | computes now =>
    cases now with
    | start | compute | promote => exact .inr (.inr ⟨by simp, by simp, by simp⟩)
  | zinh | setInhibit | stalls => exact .inr (.inr ⟨by simp [State.formInhibits], by simp [State.formInhibits], by simp [State.formInhibits]⟩)
  | talked | capSel | mask | collect | clearNotices | readOrders | storeBank | restartPeriod | extend | startHold
    | moveHold | override | endHold => exact .inr (.inr ⟨rfl, rfl, rfl⟩)
  | _ => exact .inr (.inr ⟨by simp, by simp, by simp⟩)

/-- A change of a ZINH line forms the inhibits of its zone, and leaves those of the others, whose lines stand. -/
theorem zinhEvent_follows {z : Fin 4} {level : Bool} (hs : ∀ i, (s.slot i).follows s.pins.zinh) (i : Fin 32) :
    ((zinhEvent z { s with pins := { s.pins with zinh := s.pins.zinh.set z level } }).slot i).follows (s.pins.zinh.set z level) := by
  have before := hs i
  rw [zinhEvent]
  generalize hu : ({ s with pins := { s.pins with zinh := s.pins.zinh.set z level } } : State) = u
  have slot : s.slot i = u.slot i := by rw [← hu]; rfl
  have lines : s.pins.zinh.set z level = u.pins.zinh := by rw [← hu]
  rw [slot] at before
  rw [lines]
  cases ht : u.tanks[i] with
  | none =>
    rw [State.formInhibits_slot_other _ _ _ (.inl ht)]
    intro t' ht'
    simp [State.slot, ht] at ht'
  | some t =>
    cases hz : t.defn.zone == z with
    | false =>
      rw [State.formInhibits_slot_other _ _ _ (.inr (by rw [State.tankIs_of ht, hz]))]
      refine Slot.follows_of_tank ht ?_
      have other : z.val ≠ t.defn.zone.val := fun e => by simp [Fin.ext e.symm] at hz
      rw [before t ht, ← lines]
      simp [other]
    | true =>
      rw [State.formInhibits_slot _ _ _ ht (by rw [State.tankIs_of ht, hz])]
      split
      · exact Slot.withdrawn_follows (Slot.follows_of_tank rfl rfl)
      · exact Slot.follows_of_tank rfl rfl

theorem linesTaken_iff (s : State) : LinesTaken s ↔ (s.resetAsserted = true → ∀ i, (s.slot i).tank = none) ∧
    (∀ i, (s.slot i).follows s.pins.zinh) ∧ (s.resetAsserted = false →
      s.alloc.observed = capSelNumber s.pins.capSel ∧ s.guard.lineHigh = s.pins.intakeHigh) :=
  Iff.rfl

theorem Event.linesTaken (h : Event s t) (hs : LinesTaken s) : LinesTaken t := by
  rw [linesTaken_iff] at hs ⊢
  obtain ⟨undefined, follows, taken⟩ := hs
  have gone (held : s.resetAsserted = true) (i : Fin 32) : (t.slot i).tank = none := by
    have chain := h.slot i
    generalize t.slot i = y at chain
    induction chain with
    | refl => exact undefined held i
    | tail _ change ih => exact change.undefined held ih
  refine ⟨fun held i => ?_, ?_, fun released => ⟨?_, ?_⟩⟩
  · rcases h.awake with ⟨reset, -⟩ | reset | ⟨reset, -⟩
    · exact gone (reset.symm.trans held) i
    · simp [reset, resetState, State.held, State.slot]
    · simp [reset] at held
  · rcases h.zinhLines with same | held | ⟨z, level, rfl⟩
    · intro i
      rw [same]
      have chain := h.slot i
      rw [same] at chain
      generalize t.slot i = y at chain
      induction chain with
      | refl => exact follows i
      | tail _ change ih => exact change.follows ih
    · intro i t' ht'
      simp [gone held i] at ht'
    · intro i
      rw [zinhEvent_pins]
      exact zinhEvent_follows follows i
  · rcases h.capSelLines with held | formed | ⟨reset, observed, lines⟩
    · simp [released] at held
    · exact formed
    · rw [observed, lines]
      exact (taken (reset ▸ released)).1
  · rcases h.intakeLine with held | formed | ⟨reset, level, line⟩
    · simp [released] at held
    · exact formed
    · rw [level, line]
      exact (taken (reset ▸ released)).2

end

/-- Settles O58, each law by what an event does to the record it speaks of. -/
theorem linesAndTimersFollow : Obligations.LinesAndTimersFollow := by
  intro s t h
  have follow : Kept fun s => AttnFollows s.notices ∧ RainFollows s :=
    { event := fun e hs => ⟨e.attnFollows hs.1, e.rainFollows hs.2⟩, count := fun _ _ hs => hs }
  refine ⟨fun hs => ?_, Kept.step ⟨Event.linesTaken, fun _ _ hs => hs⟩ h, selectionLawful_kept.step h, holdLawful_kept.step h,
    timersLawful_kept.step h⟩
  rw [linesFollow_iff] at hs ⊢
  exact follow.step h hs

end Sys2Proof.Machine
end

section
/-! PROOFS. The requests of the Tank Table: definition, lifecycle, mode and inhibit (R2 to R15). -/

namespace Sys2Proof.Machine

/-! ### Requests in general -/

section
variable {c : Instr} {s : State} {tag : Byte}

/-- A request whose answer is accepted leaves the owner's state with an OK reply. -/
theorem exec_accepted {a : Answer} {payload : List Byte} {u : State} (h : exec c s = .next (a.stored tag))
    (ha : a = accept payload u) : exec c s = .next (u.replied tag .ok payload) := by
  rw [h, ha, accept_stored]

end

/-- A row of the five counters (section 10.6). -/
theorem SpillCounters.bytes_eq (c : SpillCounters) : c.bytes =
    bytesOf 2 c.begun ++ bytesOf 2 c.counted ++ bytesOf 4 c.seconds ++ bytesOf 6 c.litres ++ bytesOf 2 c.restricted := by
  simp [bytes, joinFields]

/-! ### DEFINE_TANK (R2 to R4) -/

/-- The check of DEFINE_TANK accepts exactly the fields in range. -/
theorem tankFieldsOk_iff (f : TankFields) : tankFieldsOk f = true ↔ FieldsInRange f := by
  simp only [tankFieldsOk, FieldsInRange, Bool.and_eq_true, Bool.or_eq_true, decide_eq_true_eq, beq_iff_eq, Set.mem_Icc,
    List.mem_cons, List.not_mem_nil, or_false]
  omega

theorem Combine.code_ofCode {n : Nat} (h : n ≤ 1) : ((Combine.ofCode n).getD .or).code = n := by
  interval_cases n <;> rfl

theorem FaultReaction.code_ofCode {n : Nat} (h : n ≤ 1) : ((FaultReaction.ofCode n).getD .latch).code = n := by
  interval_cases n <;> rfl

/-- The definition part formed of fields in range holds them. -/
theorem tankDefOf_holds (c : Fin 8) (z : Fin 4) {f : TankFields} (h : FieldsInRange f) : (tankDefOf c z f).Holds c z f := by
  obtain ⟨combine, priority, -, -, -, -, -, -, reaction, -⟩ := h
  have basePriority : (Fin.ofNat 16 f.basePriority).val = f.basePriority := Nat.mod_eq_of_lt (by omega)
  exact ⟨rfl, rfl, Combine.code_ofCode combine, basePriority, rfl, rfl, rfl, rfl, rfl, rfl, rfl,
    FaultReaction.code_ofCode reaction, rfl, rfl, rfl, rfl⟩

section
variable {s : State} {i : Fin 32} {c : Fin 8} {z : Fin 4} {f : TankFields}

theorem State.inService_eq (s : State) (i : Fin 32) : s.inService i = isInService s.tanks[i] := by
  cases h : s.tanks[i] with
  | none => rw [inService, serviceAt_undefined h]; rfl
  | some t => simp [inService, serviceAt, h, isInService]

theorem answerDefineTank_badIndex {tank : Nat} (h : 31 < tank ∨ 7 < f.catchment ∨ 3 < f.zone) :
    answerDefineTank tank f s = refuse .badIndex s := by
  unfold answerDefineTank
  split
  · next i c z ht hc hz =>
    simp only [indexIn, Option.dite_none_right_eq_some, Option.some.injEq] at ht hc hz
    obtain ⟨ht, -⟩ := ht
    obtain ⟨hc, -⟩ := hc
    obtain ⟨hz, -⟩ := hz
    omega
  · rfl

/-- Past the indices, the other checks of DEFINE_TANK and its effect. -/
theorem answerDefineTank_inRange (hc : c.val = f.catchment) (hz : z.val = f.zone) :
    answerDefineTank i f s =
      if s.inService i then refuse .notOffline s
      else if tankFieldsOk f then
        if s.catchments[c].isSome then
          let defined := s.setTank i (some (s.definedTank i (tankDefOf c z f)))
          accept [] (if s.tanks[i].isNone then defined.clearEntry i else defined)
        else refuse .notDefined s
      else refuse .badValue s := by
  rw [answerDefineTank, ← hc, ← hz, indexIn_val, indexIn_val, indexIn_val, s.inService_eq]

/-- The record and the entry of a tank just created (R2). -/
theorem definedTank_of_undefined (h : s.tanks[i] = none) (d : TankDef) :
    (s.setTank i (some (s.definedTank i d))).clearEntry i =
      { s with
        tanks := s.tanks.set i (some
          { defn := d, stage := none, rating := none, inForce := { mode := .auto, value := 0 }
            pendingMode := { mode := .auto, value := 0 }, softInhibit := false
            inhibited := formInhibit d.combine s.pins.zinh[d.zone] false, service := none
            book := { counters := { begun := 0, counted := 0, seconds := 0, litres := 0, restricted := 0 }
                      window := none, lastClose := none } })
        orders := s.orders.set i { s.orders[i] with active := 0, next := 0, mark := .noMark } } := by
  rw [State.definedTank, h]
  rfl

/-- The record of an OFFLINE tank redefined (R3). -/
theorem definedTank_of_defined {t : Tank} (h : s.tanks[i] = some t) (d : TankDef) : s.definedTank i d =
    { t with
      defn := d
      stage := t.stage.map fun st =>
        { points := st.points, vDry := interpolate st.points d.dryLevel, vCrest := interpolate st.points d.crestLevel }
      inForce := { t.inForce with value := min t.inForce.value d.rMax }
      pendingMode := { t.pendingMode with value := min t.pendingMode.value d.rMax }
      inhibited := formInhibit d.combine s.pins.zinh[d.zone] t.softInhibit } := by
  rw [State.definedTank, h]
  rfl

end

/-- Settles O15: the checks in the order in which the answer makes them, and the two kinds of record that it writes. -/
theorem tankDefined : Obligations.TankDefined := by
  intro s tag tank f taken
  have answered := exec_defineTank_taken tank f taken
  refine ⟨fun out => refusedWith_of_answer answered (answerDefineTank_badIndex out), ?_⟩
  rintro i c z rfl hc hz
  have checks := answerDefineTank_inRange (s := s) (i := i) hc hz
  refine ⟨fun present => ?_, fun absent bad => ?_, fun absent ok undefined => ?_, fun absent ok known => ?_⟩
  · exact refusedWith_of_answer answered (by rw [checks, if_pos present])
  · exact refusedWith_of_answer answered (by simp [checks, absent, mt (tankFieldsOk_iff f).1 bad])
  · exact refusedWith_of_answer answered (by simp [checks, absent, (tankFieldsOk_iff f).2 ok, undefined])
  · have accepted := checks
    simp only [absent, (tankFieldsOk_iff f).2 ok, known, if_true, Bool.false_eq_true, if_false] at accepted
    refine ⟨tankDefOf c z f, tankDefOf_holds c z ok, fun fresh => ?_, fun t defined => ?_⟩
    · rw [exec_accepted answered accepted, if_pos (by simp [fresh]), definedTank_of_undefined fresh]
      rfl
    · rw [exec_accepted answered accepted, if_neg (by simp [defined]), definedTank_of_defined defined]
      rfl

/-! ### Zeroing one tank -/

section
variable (s : State) (i : Fin 32)

/-- Zeroing one tank writes its entry and no other. -/
theorem zeroOrders_one_orders : (s.zeroOrders fun j => j == i).orders =
    s.orders.set i { s.orders[i] with
      active := 0, next := 0, activeChanged := s.orders[i].activeChanged || s.orders[i].active != 0 } := by
  refine Vector.ext fun j hj => ?_
  rw [State.zeroOrders_orders, Vector.getElem_set]
  by_cases h : (i : Nat) = j
  · subst h
    simp
  · have other : (⟨j, hj⟩ : Fin 32) ≠ i := fun e => h (congrArg Fin.val e).symm
    simp [h, other]

/-- The record written after a zeroing of one tank is the only change of the records. -/
theorem zeroOrders_one_tanks_set (t : Option Tank) : (s.zeroOrders fun j => j == i).tanks.set i t = s.tanks.set i t := by
  refine Vector.ext fun j hj => ?_
  rw [Vector.getElem_set, Vector.getElem_set]
  by_cases h : (i : Nat) = j
  · simp [h]
  · have other : (⟨j, hj⟩ : Fin 32) ≠ i := fun e => h (congrArg Fin.val e).symm
    simp [h, other]

/-- Posting depends on the Notice Set alone. -/
theorem postAllocation_notices_congr {s t : State} (h : t.notices = s.notices) (p : AllocationPost) :
    (t.postAllocation p).notices = (s.postAllocation p).notices := by
  simp only [State.postAllocation, h]

theorem postTanks_notices_congr {s t : State} (h : t.notices = s.notices) (posts : Fin 32 → List TankPost) :
    (t.postTanks posts).notices = (s.postTanks posts).notices := by
  simp only [State.postTanks, h]

theorem postTank_notices_congr {t : State} (h : t.notices = s.notices) (posts : List TankPost) :
    (t.postTank i posts).notices = (s.postTank i posts).notices :=
  postTanks_notices_congr h _

end

/-! ### PLACE_IN_SERVICE and RETIRE_TANK (R8, R10) -/

/-- The own part of PLACE_IN_SERVICE: both tables, then the fresh service part. -/
def placeTank (s : State) (i : Fin 32) (t : Tank) : Answer :=
  if t.stage.isSome && t.rating.isSome then accept [] (s.setTank i (some { t with service := some Service.fresh }))
  else refuse .notDefined s

theorem answerPlaceInService_eq (tank : Nat) (s : State) :
    answerPlaceInService tank s = answerOffline tank (placeTank s) s := rfl

/-- The own part of RETIRE_TANK. -/
def retireTank (s : State) (i : Fin 32) (t : Tank) : Answer :=
  accept t.book.counters.bytes (((s.zeroOrders fun j => j == i).setTank i none).discardTankNotices i)

theorem answerRetireTank_eq (tank : Nat) (s : State) : answerRetireTank tank s = answerOffline tank (retireTank s) s := rfl

/-- The state that a retired tank leaves. -/
theorem retired_eq (s : State) (i : Fin 32) {u : State}
    (hu : u = ((s.zeroOrders fun j => j == i).setTank i none).discardTankNotices i) :
    u = { s with
      tanks := s.tanks.set i none
      orders := s.orders.set i { s.orders[i] with
        active := 0, next := 0, activeChanged := s.orders[i].activeChanged || s.orders[i].active != 0 }
      notices := { s.notices with
        tanks := s.notices.tanks.set i { kinds := 0, detail := none }, attn := u.notices.attn } } := by
  subst hu
  apply State.ext_fields
  case tanks => simp [zeroOrders_one_tanks_set]
  case orders => simp [zeroOrders_one_orders]
  case notices => simp [State.discardTankNotices, Notices.settled]
  all_goals simp

/-- ATTN after the notices of one tank are discarded (R185). -/
theorem discardTankNotices_attn (s : State) (i : Fin 32) : (s.discardTankNotices i).notices.attn = true ↔
    s.notices.allocation ≠ 0 ∨ (∃ j : Fin 32, j ≠ i ∧ s.notices.tanks[j].kinds ≠ 0) ∨
      ∃ k : Fin 8, s.notices.catchments[k] ≠ 0 := by
  have kinds : ∀ j : Fin 32, (s.notices.tanks.set i { kinds := 0, detail := none })[j].kinds ≠ 0 ↔
      j ≠ i ∧ s.notices.tanks[j].kinds ≠ 0 := by
    intro j
    by_cases h : j = i
    · simp [h]
    · have other : (i : Nat) ≠ j := fun e => h (Fin.ext e.symm)
      simp [h, other]
  rw [State.discardTankNotices, Notices.settled]
  simp only [Notices.anyPending_iff, kinds]

/-- Settles O17: both requests make the checks on an OFFLINE tank first. -/
theorem tankPlacedAndRetired : Obligations.TankPlacedAndRetired := by
  refine ⟨fun s tag tank taken => ?_, fun s tag tank taken => ?_⟩
  · obtain ⟨outOfRange, inRange⟩ := exec_answerOffline (answerPlaceInService_eq tank s ▸ exec_placeInService_taken tank taken)
    refine ⟨outOfRange, fun i hi => ?_⟩
    obtain ⟨undefined, defined⟩ := inRange i hi
    refine ⟨undefined, fun t ht => ?_⟩
    obtain ⟨inService, offline⟩ := defined t ht
    refine ⟨inService, fun hv missing => ?_, fun hv stage rating => ?_⟩
    · refine refusedWith_of_answer (offline hv) (if_neg ?_)
      rcases missing with h | h <;> simp [h]
    · exact exec_accepted (offline hv) (if_pos (by simp [stage, rating]))
  · obtain ⟨outOfRange, inRange⟩ := exec_answerOffline (answerRetireTank_eq tank s ▸ exec_retireTank_taken tank taken)
    refine ⟨outOfRange, fun i hi => ?_⟩
    obtain ⟨undefined, defined⟩ := inRange i hi
    refine ⟨undefined, fun t ht => ?_⟩
    obtain ⟨inService, offline⟩ := defined t ht
    refine ⟨inService, fun hv => ⟨_, ?_, retired_eq s i rfl, ?_⟩⟩
    · rw [← SpillCounters.bytes_eq]
      exact exec_accepted (offline hv) rfl
    · rw [discardTankNotices_attn]
      simp

/-! ### TAKE_OFFLINE (R9) -/

/-- The state that a tank taken offline leaves. -/
theorem takenOffline_eq (s : State) (i : Fin 32) (t : Tank) (posts : List TankPost) :
    (((s.withdraw fun j => j == i).clearMark i).setTank i (some t)).postTank i posts =
      { s with
        tanks := s.tanks.set i (some t)
        orders := s.orders.set i
          { active := 0, next := 0, mark := .noMark
            activeChanged := s.orders[i].activeChanged || s.orders[i].active != 0 }
        alloc := { s.alloc with runOrder := s.alloc.runOrder.filter fun j => j ≠ i }
        notices := (s.postTank i posts).notices } := by
  apply State.ext_fields
  case tanks => simp [zeroOrders_one_tanks_set]
  case orders =>
    have marked : ∀ orders : Vector OrderEntry 32, ∀ e : OrderEntry, orders = s.orders.set i e →
        orders.set i { orders[i] with mark := .noMark } = s.orders.set i { e with mark := .noMark } := by
      rintro _ e rfl
      simp
    simpa [State.clearMark] using marked _ _ (zeroOrders_one_orders s i)
  case alloc =>
    simp [State.withdraw_alloc, beq_eq_decide]
  case notices => exact postTank_notices_congr s i (by simp) posts
  all_goals simp

theorem answerTakeOffline_badIndex {s : State} {tank : Nat} (h : 31 < tank) :
    answerTakeOffline tank s = refuse .badIndex s := by
  simp [answerTakeOffline, indexIn_out h]

theorem answerTakeOffline_undefined {s : State} {i : Fin 32} (h : s.tanks[i] = none) :
    answerTakeOffline i s = refuse .notDefined s := by
  simp only [answerTakeOffline, indexIn_val, h]

theorem answerTakeOffline_offline {s : State} {i : Fin 32} {t : Tank} (h : s.tanks[i] = some t) (hv : t.service = none) :
    answerTakeOffline i s = refuse .notInService s := by
  simp only [answerTakeOffline, indexIn_val, h, hv]

theorem answerTakeOffline_inService {s : State} {i : Fin 32} {t : Tank} {v : Service} (h : s.tanks[i] = some t)
    (hv : t.service = some v) :
    answerTakeOffline i s = accept [] ((((s.withdraw fun j => j == i).clearMark i).setTank i
      (some (t.leaveService v).tank)).postTank i (t.leaveService v).posts) := by
  simp only [answerTakeOffline, indexIn_val, h, hv]

/-- A close that no report makes: without an open event nothing is counted, and an event is closed at the last report time. -/
theorem closeAtLastReport_spec (mark : CloseMark) (v : Service) (b : SpillBook) :
    (closeAtLastReport mark v b).spilling = .quiet ∧
    ((∀ e, v.spilling ≠ .event e) → (closeAtLastReport mark v b).book = b ∧ (closeAtLastReport mark v b).posts = []) ∧
    ∀ e r, v.spilling = .event e → v.level.lastReport = some r →
      (closeAtLastReport mark v b).book = b.close mark r e ∧ (closeAtLastReport mark v b).posts = [.spillClosed mark] := by
  rw [closeAtLastReport]
  cases v.spilling with
  | event e =>
    refine ⟨rfl, fun quiet => absurd rfl (quiet e), fun e' r event report => ?_⟩
    obtain rfl := Spilling.event.inj event
    rw [report]
    exact ⟨rfl, rfl⟩
  | candidate | quiet => exact ⟨rfl, fun _ => ⟨rfl, rfl⟩, nofun⟩

/-- Settles O18: the withdrawal, the mark, the record and the notice of the close. -/
theorem tankTakenOffline : Obligations.TankTakenOffline := by
  intro s tag tank taken
  have answered := exec_takeOffline_taken tank taken
  refine ⟨fun out => refusedWith_of_answer answered (answerTakeOffline_badIndex out), ?_⟩
  rintro i rfl
  refine ⟨fun undefined => refusedWith_of_answer answered (answerTakeOffline_undefined undefined), fun t defined => ?_⟩
  refine ⟨fun absent => refusedWith_of_answer answered (answerTakeOffline_offline defined absent), fun v present => ?_⟩
  obtain ⟨-, quiet, event⟩ := closeAtLastReport_spec .cut v t.book
  refine ⟨_, _, ?_, quiet, event⟩
  rw [exec_accepted answered (answerTakeOffline_inService defined present), takenOffline_eq]
  rfl

/-! ### SET_MODE (R11) -/

/-- Settles O19: an invalid mode is refused before the tank is looked at, and either mode writes its pair. -/
theorem pendingModeWritten : Obligations.PendingModeWritten := by
  intro s tag tank mode value taken
  have answered := exec_setMode_taken tank mode value taken
  refine ⟨fun out => refusedWith_of_answer answered (by simp [answerSetMode, indexIn_out out]), ?_⟩
  rintro i rfl
  refine ⟨fun invalid => ?_, fun valid undefined => ?_, fun t defined => ⟨?_, ?_⟩⟩
  · obtain ⟨n, rfl⟩ := Nat.exists_eq_add_of_lt invalid
    exact refusedWith_of_answer answered (by simp [answerSetMode, indexIn_val, Mode.ofCode])
  · interval_cases mode <;>
      exact refusedWith_of_answer answered (by simp only [answerSetMode, indexIn_val, Mode.ofCode, undefined])
  · rintro rfl
    have least : min value t.defn.rMax = if t.defn.rMax < value then t.defn.rMax else value := by split_ifs <;> omega
    rw [← least]
    exact exec_accepted answered (by simp only [answerSetMode, indexIn_val, Mode.ofCode, defined]; rfl)
  · rintro rfl
    exact exec_accepted answered (by simp only [answerSetMode, indexIn_val, Mode.ofCode, defined]; rfl)

/-! ### Inhibit (R13 to R15) -/

/-- A tank's record with its effective inhibit formed from a line of its zone. -/
theorem Tank.formInhibit_of_line (lines : Vector Bool 4) (t : Tank) : t.formInhibit lines =
    { t with inhibited := Machine.formInhibit t.defn.combine lines[t.defn.zone] t.softInhibit } := rfl

/-- Forming the effective inhibit of one tank whose soft flag was just written (R14). -/
theorem setInhibit_formed (s : State) {i : Fin 32} {t : Tank} (soft inhibited : Bool)
    (formed : inhibited = formInhibit t.defn.combine s.pins.zinh[t.defn.zone] soft) {u : State}
    (hu : u = s.setTank i (some { t with softInhibit := soft, inhibited := inhibited })) :
    ((s.setTank i (some { t with softInhibit := soft })).formInhibits fun j => j == i) =
      if inhibited = true ∧ t.inhibited = false ∧ t.service.isSome then u.withdraw fun j => decide (j = i) else u := by
  have mapped : ((s.setTank i (some { t with softInhibit := soft })).mapTanks fun j t =>
      if (j == i) = true then t.formInhibit s.pins.zinh else t) = u := by
    subst hu
    apply State.ext_fields
    case tanks =>
      refine Vector.ext fun j hj => ?_
      rw [State.setTank_tanks, Vector.getElem_set]
      by_cases h : (i : Nat) = j
      · subst h
        simp [State.mapTanks, Tank.formInhibit_of_line, formed]
      · have other : (⟨j, hj⟩ : Fin 32) ≠ i := fun e => h (congrArg Fin.val e).symm
        simp [State.mapTanks, other, h]
    all_goals simp
  have rises : ∀ j : Fin 32, ((j == i) && (s.setTank i (some { t with softInhibit := soft })).tankIs (fun t =>
      t.service.isSome && !t.inhibited && (t.formInhibit s.pins.zinh).inhibited) j) =
      (decide (j = i) && (inhibited && !t.inhibited && t.service.isSome)) := by
    intro j
    by_cases h : j = i
    · subst h
      rw [State.tankIs_of (State.setTank_tanks_self _ _ _), Tank.formInhibit_of_line, ← formed]
      cases inhibited <;> cases t.inhibited <;> cases t.service.isSome <;> simp
    · simp [h]
  simp only [State.formInhibits, State.setTank_pins, mapped, rises]
  split_ifs with rise
  · obtain ⟨up, down, present⟩ := rise
    simp [up, down, present]
  · refine State.withdraw_none _ _ fun j => ?_
    cases inhibited <;> cases h : t.inhibited <;> cases hv : t.service.isSome <;> simp_all

/-- A change of a ZINH line forms the effective inhibit of every defined tank of the zone anew (R13, R15). -/
theorem zinhEvent_formed (s : State) (z : Fin 4) (level : Bool) {u : State} (hu : u = { s with
      pins := { s.pins with zinh := s.pins.zinh.set z level }
      tanks := Vector.ofFn fun j => (s.tanks[j]).map fun t =>
        if t.defn.zone = z then { t with inhibited := formInhibit t.defn.combine level t.softInhibit } else t }) :
    zinhEvent z { s with pins := { s.pins with zinh := s.pins.zinh.set z level } } =
      u.withdraw fun j => match s.tanks[j] with
        | some t => decide (t.defn.zone = z) && t.service.isSome && !t.inhibited &&
            formInhibit t.defn.combine level t.softInhibit
        | none => false := by
  have ofZone : ∀ t : Tank, t.defn.zone = z → t.formInhibit (s.pins.zinh.set z level) =
      { t with inhibited := formInhibit t.defn.combine level t.softInhibit } := by
    rintro t rfl
    simp [Tank.formInhibit_of_line]
  have mapped : (State.mapTanks (fun j t => if State.tankIs { s with pins := { s.pins with zinh := s.pins.zinh.set z level } }
      (fun t => t.defn.zone == z) j = true then t.formInhibit (s.pins.zinh.set z level) else t)
      { s with pins := { s.pins with zinh := s.pins.zinh.set z level } }) = u := by
    subst hu
    apply State.ext_fields
    case tanks =>
      refine Vector.ext fun j hj => ?_
      cases defined : s.tanks[j] with
      | none => simp [State.mapTanks, defined]
      | some t =>
        by_cases h : t.defn.zone = z
        · simp [State.mapTanks, State.tankIs, defined, h, ofZone t h]
        · simp [State.mapTanks, State.tankIs, defined, h]
    all_goals simp
  have rises : (fun j => State.tankIs { s with pins := { s.pins with zinh := s.pins.zinh.set z level } }
      (fun t => t.defn.zone == z) j && State.tankIs { s with pins := { s.pins with zinh := s.pins.zinh.set z level } }
        (fun t => t.service.isSome && !t.inhibited && (t.formInhibit (s.pins.zinh.set z level)).inhibited) j) =
      fun j => match s.tanks[j] with
        | some t => decide (t.defn.zone = z) && t.service.isSome && !t.inhibited &&
            formInhibit t.defn.combine level t.softInhibit
        | none => false := by
    funext j
    cases defined : s.tanks[j] with
    | none => simp [State.tankIs, defined]
    | some t =>
      by_cases h : t.defn.zone = z
      · simp [State.tankIs, defined, h, ofZone t h, Bool.and_assoc]
      · simp [State.tankIs, defined, h]
  simp only [zinhEvent, State.formInhibits, mapped, rises]

/-- A flag as a byte. -/
theorem bytesOf_flagCode (b : Bool) : bytesOf 1 (flagCode b) = [if b then 1 else 0] := by
  cases b <;> rfl

/-- Settles O20: what forming the inhibit of one tank, and that of the tanks of a zone, leaves. -/
theorem inhibitFormedAnew : Obligations.InhibitFormedAnew := by
  refine ⟨fun line soft => ⟨rfl, rfl⟩, fun s tag tank flag taken => ?_, fun s z level released changed => ?_⟩
  · have answered := exec_setInhibit_taken tank flag taken
    refine ⟨fun out => refusedWith_of_answer answered (by simp [answerSetInhibit, indexIn_out out]), ?_⟩
    rintro i rfl
    refine ⟨fun invalid => ?_, fun valid undefined => ?_, fun t valid defined => ⟨_, _, rfl, rfl, ?_⟩⟩
    · exact refusedWith_of_answer answered (by simp only [answerSetInhibit, indexIn_val, if_pos invalid])
    · exact refusedWith_of_answer answered (by simp only [answerSetInhibit, indexIn_val, if_neg valid.not_gt, undefined])
    · rw [exec_accepted answered (by simp only [answerSetInhibit, indexIn_val, if_neg valid.not_gt, defined]; rfl)]
      rw [← setInhibit_formed s (decide (flag = 1)) _ rfl rfl, ← bytesOf_flagCode]
      rfl
  · refine ⟨_, rfl, ?_⟩
    have followed := (whileReleased_released (event := zinhEvent z) (by exact released)).trans (zinhEvent_formed s z level rfl)
    exact congrArg Host.Outcome.next ((if_neg changed).trans followed)

end Sys2Proof.Machine
end

section
/-! PROOFS. The Gauge Unit: definition and retirement (R63 to R65), tips and storms (R66 to R70), intensity (R72, R73). -/

namespace Sys2Proof.Machine

/-! ### DEFINE_GAUGE and RETIRE_GAUGE (R63 to R65) -/

/-- The check of DEFINE_GAUGE accepts exactly the values in range. -/
theorem gaugeValuesOk_iff (depth debounce gap : Nat) : gaugeValuesOk depth debounce gap = true ↔
    depth ∈ Set.Icc 1 100 ∧ debounce ∈ Set.Icc 1 50 ∧ gap ∈ Set.Icc 600 86400 := by
  simp [gaugeValuesOk, and_assoc]

/-- A gauge is listed where some defined catchment lists it. -/
theorem State.gaugeListed_iff (s : State) (k : Fin 12) :
    s.gaugeListed k = true ↔ ∃ j : Fin 8, ∃ c ∈ s.catchments[j], k ∈ c.defn.gauges := by
  simp only [gaugeListed, Vector.any_eq_true, Fin.exists_iff]
  refine exists_congr fun j => exists_congr fun hj => ?_
  cases h : s.catchments[j] with
  | none => simp
  | some c => simp

/-- Settles O21: the values before the record in DEFINE_GAUGE, the record before its use in RETIRE_GAUGE. -/
theorem gaugeDefinedAndRetired : Obligations.GaugeDefinedAndRetired := by
  refine ⟨fun s tag gauge d debounce gap taken => ?_, fun s tag gauge taken => ?_⟩
  · have answered := exec_defineGauge_taken gauge d debounce gap taken
    refine ⟨fun out => refusedWith_of_answer answered (by simp [answerDefineGauge, indexIn_out out]), ?_⟩
    rintro k rfl
    refine ⟨fun bad => ?_, fun depth bounce dry => ⟨fun fresh => ?_, fun g defined => ?_⟩⟩
    · refine refusedWith_of_answer answered ?_
      simp only [answerDefineGauge, indexIn_val, mt (gaugeValuesOk_iff d debounce gap).1 bad, if_false, Bool.false_eq_true]
    · have ok := (gaugeValuesOk_iff d debounce gap).2 ⟨depth, bounce, dry⟩
      exact exec_accepted answered (by simp only [answerDefineGauge, indexIn_val, ok, if_true, fresh]; rfl)
    · have ok := (gaugeValuesOk_iff d debounce gap).2 ⟨depth, bounce, dry⟩
      exact exec_accepted answered (by simp only [answerDefineGauge, indexIn_val, ok, if_true, defined]; rfl)
  · have answered := exec_retireGauge_taken gauge taken
    refine ⟨fun out => refusedWith_of_answer answered (by simp [answerRetireGauge, indexIn_out out]), ?_⟩
    rintro k rfl
    refine ⟨fun undefined => ?_, fun known used => ?_, fun known free => ?_⟩
    · exact refusedWith_of_answer answered (by simp only [answerRetireGauge, indexIn_val, undefined])
    · obtain ⟨g, defined⟩ := Option.isSome_iff_exists.1 known
      have listed := (s.gaugeListed_iff k).2 used
      exact refusedWith_of_answer answered (by simp only [answerRetireGauge, indexIn_val, defined, listed, if_true])
    · obtain ⟨g, defined⟩ := Option.isSome_iff_exists.1 known
      have unlisted : ¬s.gaugeListed k = true := fun listed => by
        obtain ⟨j, c, hc, lists⟩ := (s.gaugeListed_iff k).1 listed
        exact free j c hc lists
      exact exec_accepted answered (by simp only [answerRetireGauge, indexIn_val, defined, if_neg unlisted]; rfl)

/-! ### Tips and storms (R66 to R70) -/

section
variable {s : State} {k : Fin 12}

/-- An edge on the TIP line of a released part is the gauge's tip. -/
theorem exec_tipEdge_released (released : s.resetAsserted = false) : exec (.tipEdge k) s = .next (tipEvent k s) :=
  congrArg Host.Outcome.next (whileReleased_released released)

theorem tipEvent_undefined (h : s.gauges[k] = none) : tipEvent k s = s := by
  simp only [tipEvent, h]

theorem tipEvent_refused {g : Gauge} {last : Nat} (h : s.gauges[k] = some g) (hl : g.lastTip = some last)
    (early : s.ds - last < g.debounce) : tipEvent k s = s := by
  simp [tipEvent, h, Gauge.accepts, hl, early]

theorem tipEvent_accepted {g : Gauge} (h : s.gauges[k] = some g)
    (late : ∀ last, g.lastTip = some last → g.debounce ≤ s.ds - last) :
    tipEvent k s = s.setGauge k (some (g.tip s.ds)) := by
  have accepts : g.accepts s.ds = true := by
    rw [Gauge.accepts]
    cases hl : g.lastTip with
    | none => rfl
    | some last => exact decide_eq_true (late last hl)
  simp only [tipEvent, h, accepts, if_true]

end

/-! ### The intensity (R72, R73) -/

namespace Gauge
variable {g : Gauge}

theorem intensity_of_dry (h : g.storm = .dry) (ds : Nat) : g.intensity ds = 0 := by
  rw [intensity, h]

theorem intensity_of_no_interval (h : g.interval = none) (ds : Nat) : g.intensity ds = 0 := by
  rw [intensity, h]
  cases g.storm <;> rfl

theorem intensity_of_interval {i : Nat} (wet : g.storm = .wet) (interval : g.interval = some i) (ds : Nat) :
    g.intensity ds = min 65535 (3600 * g.tipDepth.getD 0 / max i (ds - g.lastTip.getD ds)) := by
  rw [intensity, wet, interval]
  rfl

/-- A gauge has an intensity above 0 only in a storm of at least two tips. -/
theorem intensity_cases (g : Gauge) : (∀ ds, g.intensity ds = 0) ∨ ∃ i, g.storm = .wet ∧ g.interval = some i := by
  cases wet : g.storm with
  | dry => exact .inl (intensity_of_dry wet)
  | wet =>
    cases interval : g.interval with
    | none => exact .inl (intensity_of_no_interval interval)
    | some i => exact .inr ⟨i, rfl, rfl⟩

theorem intensity_le (g : Gauge) (ds : Nat) : g.intensity ds ≤ 65535 := by
  rcases g.intensity_cases with zero | ⟨i, wet, interval⟩
  · simp [zero]
  · rw [intensity_of_interval wet interval]
    exact min_le_left _ _

/-- Between tips the time since the last one grows, and with it the divisor (R73). -/
theorem intensity_anti (positive : g.interval ≠ some 0) {a b : Nat} (h : a ≤ b) : g.intensity b ≤ g.intensity a := by
  rcases g.intensity_cases with zero | ⟨i, wet, interval⟩
  · simp [zero]
  · rw [intensity_of_interval wet interval, intensity_of_interval wet interval]
    have away : i ≠ 0 := fun zero => positive (zero ▸ interval)
    have longer : a - g.lastTip.getD a ≤ b - g.lastTip.getD b := by
      cases g.lastTip with
      | none => simp
      | some last => exact Nat.sub_le_sub_right h last
    exact min_le_min_left _ (Nat.div_le_div_left (max_le_max_left _ longer) (by omega))

end Gauge

/-- Settles O22: the debounce, the two kinds of tip, the end of a storm, and the intensity with its two limits. -/
theorem tipsMakeStorms : Obligations.TipsMakeStorms := by
  refine ⟨fun s k released => ?_, fun g => ⟨fun ds dry => g.intensity_of_dry dry ds, fun ds absent => g.intensity_of_no_interval absent ds,
    fun ds i u last wet interval depth tip => ?_, g.intensity_le, fun a b positive h => g.intensity_anti positive h⟩⟩
  · rw [exec_tipEdge_released released]
    refine ⟨fun undefined => congrArg _ (tipEvent_undefined undefined), fun g defined => ⟨fun last tip early => ?_, fun late => ?_, fun e timer reached => ?_⟩⟩
    · exact congrArg _ (tipEvent_refused defined tip early)
    · rw [tipEvent_accepted defined late]
      refine ⟨fun dry => ?_, fun last wet tip => ?_⟩
      · rw [Gauge.tip, dry]
        rfl
      · rw [Gauge.tip, wet, tip]
        rfl
    · have expired : due g.dryTimer s.ds = true := by simp [due, timer, reached]
      have ends : dryGapEvent k s = s.setGauge k (some g.endStorm) := by simp only [dryGapEvent, defined, expired, if_true]
      exact congrArg Host.Outcome.next ((whileReleased_released released).trans ends)
  · rw [Gauge.intensity_of_interval wet interval, depth, tip]
    rfl

end Sys2Proof.Machine
end

section
/-! PROOFS. The Alert Unit: definition and retirement of catchments (R79 to R81), evaluation (R82 to R92), the forecast floor and
acknowledgement (R87 to R94). -/

namespace Sys2Proof.Machine

/-! ### The body of DEFINE_CATCHMENT -/

/-- Fields are read from exactly as many bytes as they take. -/
theorem fieldsOf_eq_none {widths : List Nat} {bytes : List Byte} (h : bytes.length ≠ widths.sum) : fieldsOf widths bytes = none := by
  obtain ⟨enough, short⟩ := splitFields_isSome widths bytes
  rcases Nat.lt_or_gt_of_ne h with less | more
  · simp [fieldsOf, short less]
  · obtain ⟨numbers, -, read⟩ := enough more.le
    have left : bytes.drop widths.sum ≠ [] := by simp [more]
    rw [fieldsOf, read]
    split
    · next same => exact absurd (by simpa using congrArg (Option.map Prod.snd) same) left
    · rfl

theorem catchmentFields_eq_none {n : Nat} {body : List Byte} (h : body.length ≠ n + 22) : catchmentFields n body = none := by
  have wrong : (body.drop n).length ≠ [2, 2, 2, 4, 4, 4, 2, 2].sum := by
    simp only [List.length_drop, List.sum_cons, List.sum_nil]
    omega
  rw [catchmentFields, fieldsOf_eq_none wrong]

/-- A body laid out as section 10.6 gives it is read back. -/
theorem catchmentFields_laidOut {gauges : List Nat} {iWatch iWarning iSevere dWatch dWarning dSevere hysteresis holdDown : Nat}
    (indices : ∀ g ∈ gauges, g < 256) (words : ∀ m ∈ [iWatch, iWarning, iSevere, hysteresis, holdDown], m < 2 ^ 16)
    (longs : ∀ m ∈ [dWatch, dWarning, dSevere], m < 2 ^ 32) :
    catchmentFields gauges.length (gauges.map (BitVec.ofNat 8) ++ bytesOf 2 iWatch ++ bytesOf 2 iWarning ++ bytesOf 2 iSevere ++
      bytesOf 4 dWatch ++ bytesOf 4 dWarning ++ bytesOf 4 dSevere ++ bytesOf 2 hysteresis ++ bytesOf 2 holdDown) =
      some ⟨gauges, iWatch, iWarning, iSevere, dWatch, dWarning, dSevere, hysteresis, holdDown⟩ := by
  have layout : gauges.map (BitVec.ofNat 8) ++ bytesOf 2 iWatch ++ bytesOf 2 iWarning ++ bytesOf 2 iSevere ++
      bytesOf 4 dWatch ++ bytesOf 4 dWarning ++ bytesOf 4 dSevere ++ bytesOf 2 hysteresis ++ bytesOf 2 holdDown =
      gauges.map (BitVec.ofNat 8) ++ joinFields [2, 2, 2, 4, 4, 4, 2, 2]
        [iWatch, iWarning, iSevere, dWatch, dWarning, dSevere, hysteresis, holdDown] := by
    simp [joinFields]
  simp only [List.mem_cons, List.not_mem_nil, or_false, forall_eq_or_imp, forall_eq] at words longs
  have fit : ∀ p ∈ [2, 2, 2, 4, 4, 4, 2, 2].zip [iWatch, iWarning, iSevere, dWatch, dWarning, dSevere, hysteresis, holdDown],
      p.2 < 256 ^ p.1 := by
    simp only [List.zip_cons_cons, List.zip_nil_right, List.mem_cons, List.not_mem_nil, or_false, forall_eq_or_imp, forall_eq]
    omega
  have taken : ((gauges.map (BitVec.ofNat 8)).map BitVec.toNat : List Nat) = gauges := by
    rw [List.map_map]
    refine (List.map_congr_left fun g hg => ?_).trans (List.map_id gauges)
    simpa using indices g hg
  rw [layout, catchmentFields, List.drop_left' (by simp), List.take_left' (by simp),
    fieldsOf_joinFields _ _ (by simp) fit, taken]

/-- Numbers that are the indices of gauges are read as those. -/
theorem mapM_indexIn_val (n : Nat) (list : List (Fin n)) : (list.map Fin.val).mapM (indexIn n) = some list := by
  induction list with
  | nil => rfl
  | cons i rest ih => simp [List.mapM_cons, indexIn_val, ih]

/-- A number out of range is the index of none. -/
theorem mapM_indexIn_out {n : Nat} {numbers : List Nat} (h : ∃ g ∈ numbers, n ≤ g) : numbers.mapM (indexIn n) = none := by
  induction numbers with
  | nil => simp at h
  | cons m rest ih =>
    obtain ⟨g, hg, out⟩ := h
    rcases List.mem_cons.1 hg with rfl | later
    · simp [List.mapM_cons, indexIn_out out]
    · simp [List.mapM_cons, ih ⟨g, later, out⟩]

theorem CatchmentFields.gaugeList_of_val (f : CatchmentFields) {list : List (Fin 12)} (h : list.map Fin.val = f.gauges) :
    f.gaugeList = some list := by
  rw [gaugeList, ← h, mapM_indexIn_val]

/-- The value checks of R79. -/
theorem CatchmentFields.valuesOk_iff (f : CatchmentFields) : f.valuesOk = true ↔
    f.gauges.Nodup ∧ 1 ≤ f.iWatch ∧ f.iWatch ≤ f.iWarning ∧ f.iWarning ≤ f.iSevere ∧ f.hysteresis < f.iWatch ∧
      f.holdDown ∈ Set.Icc 60 7200 := by
  simp only [valuesOk, Bool.and_eq_true, decide_eq_true_eq, Set.mem_Icc, and_assoc]
  exact and_congr_right fun _ => by omega

/-! ### DEFINE_CATCHMENT and RETIRE_CATCHMENT (R79 to R81) -/

section
variable {s : State} {k : Fin 8} {n : Nat} {body : List Byte}

theorem answerDefineCatchment_badCount (h : n = 0 ∨ 4 < n) : answerDefineCatchment k n body s = refuse .badValue s := by
  simp only [answerDefineCatchment, indexIn_val, if_pos h]

theorem answerDefineCatchment_badLength (h : ¬(n = 0 ∨ 4 < n)) (hl : body.length ≠ n + 22) :
    answerDefineCatchment k n body s = refuse .badLength s := by
  simp only [answerDefineCatchment, indexIn_val, if_neg h, catchmentFields_eq_none hl]

variable {f : CatchmentFields} (count : ¬(n = 0 ∨ 4 < n)) (read : catchmentFields n body = some f)
include count read

theorem answerDefineCatchment_badGauge (h : ∃ g ∈ f.gauges, 11 < g) : answerDefineCatchment k n body s = refuse .badIndex s := by
  have none : f.gaugeList = none := mapM_indexIn_out h
  simp only [answerDefineCatchment, indexIn_val, if_neg count, read, none]

variable {list : List (Fin 12)} (gauges : list.map Fin.val = f.gauges)
include gauges

theorem answerDefineCatchment_badValue (h : ¬f.valuesOk = true) : answerDefineCatchment k n body s = refuse .badValue s := by
  have found : f.gaugeList = some list := f.gaugeList_of_val gauges
  simp only [answerDefineCatchment, indexIn_val, if_neg count, read, found, if_neg h]

theorem answerDefineCatchment_undefined (h : f.valuesOk = true) (missing : ∃ g ∈ list, s.gauges[g] = none) :
    answerDefineCatchment k n body s = refuse .notDefined s := by
  have found : f.gaugeList = some list := f.gaugeList_of_val gauges
  have notAll : ¬(list.all fun g => s.gauges[g].isSome) = true := by
    obtain ⟨g, hg, none⟩ := missing
    intro all
    simpa [none] using List.all_eq_true.1 all g hg
  simp only [answerDefineCatchment, indexIn_val, if_neg count, read, found, if_pos h, if_neg notAll]

/-- Past its checks DEFINE_CATCHMENT writes a fresh record, or the definition alone (R79, R80). -/
theorem answerDefineCatchment_accepted (h : f.valuesOk = true) (known : ∀ g ∈ list, s.gauges[g].isSome) :
    (s.catchments[k] = none → answerDefineCatchment k n body s =
      accept [] (s.setCatchment k (some (Catchment.fresh (f.defn list))))) ∧
    ∀ c, s.catchments[k] = some c → answerDefineCatchment k n body s =
      accept [] (s.setCatchment k (some { c with defn := f.defn list })) := by
  have found : f.gaugeList = some list := f.gaugeList_of_val gauges
  have all : (list.all fun g => s.gauges[g].isSome) = true := List.all_eq_true.2 known
  refine ⟨fun fresh => ?_, fun c defined => ?_⟩
  · simp only [answerDefineCatchment, indexIn_val, if_neg count, read, found, if_pos h, if_pos all, fresh]
  · simp only [answerDefineCatchment, indexIn_val, if_neg count, read, found, if_pos h, if_pos all, defined]

end

/-- The sum over the tanks is 0 exactly where every summand is. -/
theorem sumTanks_eq_zero_iff (f : Fin 32 → Nat) : sumTanks f = 0 ↔ ∀ i, f i = 0 := by
  simp [sumTanks, List.sum_eq_zero_iff]

theorem State.tanksNaming_eq_zero_iff (s : State) (k : Fin 8) :
    s.tanksNaming k = 0 ↔ ∀ i : Fin 32, ∀ t ∈ s.tanks[i], t.defn.catchment ≠ k := by
  rw [tanksNaming, sumTanks_eq_zero_iff]
  refine forall_congr' fun i => ?_
  cases h : s.tanks[i] with
  | none => simp [tankIs_undefined h]
  | some t => simp [tankIs_of h]

/-- A catchment retired leaves the lines as they follow. -/
theorem retiredCatchment_eq (s : State) (k : Fin 8) {u : State}
    (hu : u = ((s.setCatchment k none).discardCatchmentNotices k).formRainAlert) :
    LinesFollow u ∧ u = { s with
      catchments := s.catchments.set k none
      alerts := { s.alerts with rainAlert := u.alerts.rainAlert }
      notices := { s.notices with catchments := s.notices.catchments.set k 0, attn := u.notices.attn } } := by
  subst hu
  refine ⟨⟨?_, ?_⟩, ?_⟩
  · rw [State.formRainAlert_notices]
    exact Notices.anyPending_iff _
  · rw [State.formRainAlert_alerts]
    exact formRainAlert_iff _
  · apply State.ext_fields
    case notices => simp [State.discardCatchmentNotices, Notices.settled]
    all_goals simp

/-- Settles O23: the checks on the body in the order in which the answer makes them, and those on the record. -/
theorem catchmentDefinedAndRetired : Obligations.CatchmentDefinedAndRetired := by
  refine ⟨fun s tag catchment n body taken => ?_, fun s tag catchment taken => ?_⟩
  · have answered := exec_defineCatchment_taken catchment n body taken
    refine ⟨fun out => refusedWith_of_answer answered (by simp [answerDefineCatchment, indexIn_out out]), ?_⟩
    rintro k rfl
    refine ⟨fun bad => refusedWith_of_answer answered (answerDefineCatchment_badCount bad),
      fun low high wrong => refusedWith_of_answer answered (answerDefineCatchment_badLength (by omega) wrong), ?_⟩
    rintro gauges iWatch iWarning iSevere dWatch dWarning dSevere hysteresis holdDown low high rfl indices words longs rfl
    have count : ¬(gauges.length = 0 ∨ 4 < gauges.length) := by omega
    have read := catchmentFields_laidOut indices words longs
    refine ⟨fun out => refusedWith_of_answer answered (answerDefineCatchment_badGauge count read out), fun list same => ?_⟩
    have values := CatchmentFields.valuesOk_iff
      ⟨gauges, iWatch, iWarning, iSevere, dWatch, dWarning, dSevere, hysteresis, holdDown⟩
    refine ⟨fun bad => refusedWith_of_answer answered (answerDefineCatchment_badValue count read same (mt values.1 bad)),
      fun nodup watch warning severe margin down => ?_⟩
    have ok := values.2 ⟨nodup, watch, warning, severe, margin, down⟩
    refine ⟨fun missing => refusedWith_of_answer answered (answerDefineCatchment_undefined count read same ok missing),
      fun known => ⟨_, rfl, ?_⟩⟩
    obtain ⟨fresh, redefined⟩ := answerDefineCatchment_accepted (k := k) count read same ok known
    exact ⟨fun undefined => exec_accepted answered (fresh undefined), fun c defined => exec_accepted answered (redefined c defined)⟩
  · have answered := exec_retireCatchment_taken catchment taken
    refine ⟨fun out => refusedWith_of_answer answered (by simp [answerRetireCatchment, indexIn_out out]), ?_⟩
    rintro k rfl
    refine ⟨fun undefined => ?_, fun known used => ?_, fun known unused => ?_⟩
    · exact refusedWith_of_answer answered (by simp only [answerRetireCatchment, indexIn_val, undefined])
    · obtain ⟨c, defined⟩ := Option.isSome_iff_exists.1 known
      have named : ¬s.tanksNaming k = 0 := fun zero => by
        obtain ⟨i, t, ht, names⟩ := used
        exact (s.tanksNaming_eq_zero_iff k).1 zero i t ht names
      exact refusedWith_of_answer answered (by simp only [answerRetireCatchment, indexIn_val, defined, if_neg named])
    · obtain ⟨c, defined⟩ := Option.isSome_iff_exists.1 known
      have unnamed := (s.tanksNaming_eq_zero_iff k).2 unused
      exact ⟨_, exec_accepted answered (by simp only [answerRetireCatchment, indexIn_val, defined, if_pos unnamed]),
        retiredCatchment_eq s k rfl⟩

/-! ### The effective level formed anew (R89 to R92) -/

theorem AlertLevel.code_injective : Function.Injective AlertLevel.code := by
  intro a b
  cases a <;> cases b <;> simp [code]

/-- The level that forming leaves is the one formed. -/
theorem Catchment.formEffective_effective (now : Nat) (c : Catchment) :
    (c.formEffective now).catchment.effective = c.formedLevel :=
  AlertLevel.code_injective (c.formEffective_levels now).1

/-- Forming the effective level does what R90 and R91 say of a rise, a fall and neither; the peak changes in a rise alone. -/
theorem Catchment.formEffective_change (now : Nat) (c : Catchment) {n : Catchment} {posts : List CatchmentPost}
    (hn : n = (c.formEffective now).catchment) (hp : posts = (c.formEffective now).posts) :
    EffectiveChange now c n posts ∧ (n.effective.code ≤ c.effective.code → n.peak = c.peak) ∧
      n = { c with effective := n.effective, acknowledged := n.acknowledged, raised := n.raised, peak := n.peak } := by
  simp only [formEffective] at hn hp
  rcases lt_trichotomy c.effective.code c.formedLevel.code with rise | same | fall
  · rw [if_pos rise] at hn hp
    subst hn hp
    exact ⟨⟨fun _ => ⟨rfl, rfl, rfl, rfl⟩, fun fall => absurd rise fall.not_gt, fun same => absurd (same ▸ rise) (lt_irrefl _)⟩,
      fun below => absurd rise below.not_gt, rfl⟩
  · rw [if_neg same.not_lt, if_neg same.symm.not_lt] at hn hp
    subst hn hp
    exact ⟨⟨fun rise => absurd rise (lt_irrefl _), fun fall => absurd fall (lt_irrefl _), fun _ => ⟨rfl, rfl, rfl⟩⟩,
      fun _ => rfl, rfl⟩
  · rw [if_neg fall.not_gt, if_pos fall] at hn hp
    subst hn hp
    exact ⟨⟨fun rise => absurd fall rise.not_gt, fun _ => ⟨rfl, rfl, rfl⟩, fun same => absurd (same ▸ fall) (lt_irrefl _)⟩,
      fun _ => rfl, rfl⟩

/-! ### The evaluation (R82, R83) -/

/-- What one evaluation does beside the gauge-derived level. -/
theorem Catchment.evaluate_change (now intensity depth : Nat) (c : Catchment) {r : CatchmentStep}
    (hr : r = c.evaluate now intensity depth) :
    r.catchment.defn = c.defn ∧ r.catchment.floor = c.floor ∧ r.catchment.lastIntensity = intensity ∧
    r.catchment.lastDepth = depth ∧ EffectiveChange now c r.catchment r.posts ∧
    (r.catchment.effective.code ≤ c.effective.code →
      r.catchment.peak = if r.catchment.effective = .noAlert then c.peak else max c.peak intensity) := by
  simp only [evaluate] at hr
  generalize formedStep : Catchment.formEffective now _ = formed at hr
  obtain ⟨⟨rises, falls, stays⟩, peak, same⟩ := formEffective_change now _ (congrArg CatchmentStep.catchment formedStep).symm
    (congrArg CatchmentStep.posts formedStep).symm
  by_cases rise : c.effective.code < formed.catchment.effective.code
  · rw [if_pos rise] at hr
    subst hr
    exact ⟨by rw [same], by rw [same], by rw [same], by rw [same], ⟨rises, falls, stays⟩, fun below => absurd rise below.not_gt⟩
  · rw [if_neg rise] at hr
    subst hr
    have kept := keepPeak_eq intensity formed.catchment
    have effective : (formed.catchment.keepPeak intensity).effective = formed.catchment.effective := by rw [kept]
    have acknowledged : (formed.catchment.keepPeak intensity).acknowledged = formed.catchment.acknowledged := by rw [kept]
    have raised : (formed.catchment.keepPeak intensity).raised = formed.catchment.raised := by rw [kept]
    refine ⟨by rw [kept, same], by rw [kept, same], by rw [kept, same], by rw [kept, same], ?_, fun _ => ?_⟩
    · rw [EffectiveChange, effective, acknowledged, raised]
      exact ⟨fun up => absurd up rise, falls, stays⟩
    · rw [effective, keepPeak]
      have before : formed.catchment.peak = c.peak := peak (Nat.le_of_not_lt rise)
      split_ifs
      · exact before
      · exact congrArg (max · intensity) before

/-- The largest of a quantity over the listed gauges that are defined. -/
theorem State.largest_eq (s : State) (f : Gauge → Nat) (gauges : List (Fin 12)) :
    s.largest f gauges = (gauges.filterMap fun g => (s.gauges[g]).map f).foldl max 0 := by
  rw [largest]
  generalize 0 = m
  induction gauges generalizing m with
  | nil => rfl
  | cons g rest ih =>
    cases h : s.gauges[g] with
    | none => simp only [List.foldl_cons, h, List.filterMap_cons, Option.map_none, ih]
    | some u => simp only [List.foldl_cons, h, List.filterMap_cons, Option.map_some, ih]

/-- The evaluation of every catchment posts what each step posts. -/
theorem evaluateAll_notices (s : State) : (evaluateAll s).notices =
    (s.postCatchments fun k => ((s.evaluated k).map CatchmentStep.posts).getD []).notices := by
  have posts : (fun k => match s.evaluated k with
      | some r => r.posts
      | none => []) = fun k => ((s.evaluated k).map CatchmentStep.posts).getD [] := by
    funext k
    cases s.evaluated k <;> rfl
  rw [← posts]
  rfl

/-- It leaves the line formed anew and the timer started with E. -/
theorem evaluateAll_alerts (s : State) : (evaluateAll s).alerts =
    { evalTimer := some (s.ds + 10 * s.alerts.interval), interval := s.alerts.interval
      rainAlert := Machine.formRainAlert (evaluateAll s).catchments } := by
  simp [evaluateAll, startTimer]

/-- Settles O25: the evaluation of one catchment, and the expiry, which evaluates each that is defined. -/
theorem evaluationOfCatchments : Obligations.EvaluationOfCatchments := by
  refine ⟨fun c now intensity depth => ⟨_, rfl, c.evaluate_change now intensity depth rfl⟩, fun s e released timer reached => ?_⟩
  have expired : due s.alerts.evalTimer s.ds = true := by simp [due, timer, reached]
  have evaluates := (whileReleased_released released).trans (evaluationEvent_of_due expired)
  refine ⟨evaluateAll s, s.evaluated, congrArg Host.Outcome.next evaluates, fun k => ?_, ?_, ?_, ?_, ?_, ?_⟩
  · simp only [State.evaluated, State.largest_eq]
    rfl
  · intro k
    simp
  · exact evaluateAll_notices s
  · rw [evaluateAll_alerts]
  · rw [evaluateAll_alerts]
    dsimp only
    exact formRainAlert_iff _
  · apply State.ext_fields <;> simp

/-! ### The forecast floor and acknowledgement (R87 to R94) -/

theorem AlertLevel.ofCode_code (l : AlertLevel) : AlertLevel.ofCode l.code = some l := by
  cases l <;> rfl

theorem AlertLevel.ofCode_out {n : Nat} (h : 3 < n) : AlertLevel.ofCode n = none := by
  obtain ⟨m, rfl⟩ := Nat.exists_eq_add_of_le' h
  rfl

/-- Every number up to 3 is the code of a level. -/
theorem AlertLevel.exists_code {n : Nat} (h : n ≤ 3) : ∃ l : AlertLevel, l.code = n := by
  interval_cases n
  exacts [⟨.noAlert, rfl⟩, ⟨.watch, rfl⟩, ⟨.warning, rfl⟩, ⟨.severe, rfl⟩]

theorem AlertLevel.code_eq_zero_iff (l : AlertLevel) : l.code = 0 ↔ l = .noAlert := by
  cases l <;> simp [code]

/-- The floor that SET_FORECAST asks for (R87). -/
theorem forecastFloor_eq (s : State) (l : AlertLevel) (duration : Nat) : forecastFloor s l duration =
    if l.code = 0 then none else some { level := l, expiry := s.ds / 10 + min duration 259200
                                        timer := s.ds + 10 * min duration 259200 } := by
  rw [forecastFloor]
  exact if_congr l.code_eq_zero_iff.symm rfl rfl

/-- The floor in the reply: a timer just started has a whole number of seconds left. -/
theorem forecast_bytes (s : State) (l : AlertLevel) (duration : Nat) :
    floorBytes (forecastFloor s l duration) ++ bytesOf 4 (forecastLeft s.ds (forecastFloor s l duration)) =
      bytesOf 1 l.code ++ (if l.code = 0 then bytesOf 4 0 ++ bytesOf 4 0
        else bytesOf 4 (s.ds / 10 + min duration 259200) ++ bytesOf 4 (min duration 259200)) := by
  rw [forecastFloor_eq]
  split_ifs with zero
  · simp [floorBytes, forecastLeft, joinFields, zero]
  · have whole : openSecondsLeft .setForecast (s.ds + 10 * min duration 259200) s.ds = min duration 259200 := by
      simp [openSecondsLeft]
    simp [floorBytes, forecastLeft, joinFields, whole]

section
variable {s : State} {k : Fin 8} {l : AlertLevel} {duration : Nat}

theorem answerSetForecast_out {level : Nat} (h : 3 < level) : answerSetForecast k level duration s = refuse .badValue s := by
  simp only [answerSetForecast, indexIn_val, AlertLevel.ofCode_out h]

theorem answerSetForecast_noDuration (h : l.code ≠ 0) : answerSetForecast k l.code 0 s = refuse .badValue s := by
  have above : l ≠ .noAlert := fun e => h (l.code_eq_zero_iff.2 e)
  simp only [answerSetForecast, indexIn_val, AlertLevel.ofCode_code, above, ne_eq, not_false_eq_true, and_self, if_true]

variable (asks : l.code = 0 ∨ duration ≠ 0)
include asks

theorem answerSetForecast_undefined (h : s.catchments[k] = none) :
    answerSetForecast k l.code duration s = refuse .notDefined s := by
  have valid : ¬(l ≠ .noAlert ∧ duration = 0) := by
    rw [l.code_eq_zero_iff] at asks
    tauto
  simp only [answerSetForecast, indexIn_val, AlertLevel.ofCode_code, if_neg valid, h]

/-- An accepted SET_FORECAST writes the floor and forms the level anew (R87). -/
theorem answerSetForecast_accepted {c : Catchment} (h : s.catchments[k] = some c) :
    answerSetForecast k l.code duration s = accept
      (bytesOf 1 (Catchment.formEffective s.now { c with floor := forecastFloor s l duration }).catchment.effective.code ++
        (floorBytes (forecastFloor s l duration) ++ bytesOf 4 (forecastLeft s.ds (forecastFloor s l duration))))
      (s.reformCatchment k [] { c with floor := forecastFloor s l duration }) := by
  have valid : ¬(l ≠ .noAlert ∧ duration = 0) := by
    rw [l.code_eq_zero_iff] at asks
    tauto
  simp only [answerSetForecast, indexIn_val, AlertLevel.ofCode_code, if_neg valid, h, List.append_assoc]

end

/-- Settles O26: the floor decides the level that is formed, and forming it does the rest. -/
theorem floorsExpireAndAlertsAreAcknowledged : Obligations.FloorsExpireAndAlertsAreAcknowledged := by
  refine ⟨fun s => ⟨_, rfl, formRainAlert_iff _⟩, ⟨fun s tag catchment level duration taken => ?_, fun s k c f released defined floor reached => ?_⟩, fun s tag catchment taken => ?_⟩
  · have answered := exec_setForecast_taken catchment level duration taken
    refine ⟨fun out => refusedWith_of_answer answered (by simp [answerSetForecast, indexIn_out out]), ?_⟩
    rintro k rfl
    refine ⟨fun bad => ?_, fun low asks undefined => ?_, ?_⟩
    · by_cases out : 3 < level
      · exact refusedWith_of_answer answered (answerSetForecast_out out)
      · obtain ⟨l, rfl⟩ := AlertLevel.exists_code (Nat.le_of_not_lt out)
        obtain ⟨above, rfl⟩ := bad.resolve_left out
        exact refusedWith_of_answer answered (answerSetForecast_noDuration above)
    · obtain ⟨l, rfl⟩ := AlertLevel.exists_code low
      exact refusedWith_of_answer answered (answerSetForecast_undefined asks undefined)
    · rintro l c rfl asks defined
      have accepted := exec_accepted answered (answerSetForecast_accepted asks defined)
      rw [forecast_bytes, ← List.append_assoc] at accepted
      obtain ⟨change, peak, same⟩ :=
        Catchment.formEffective_change s.now { c with floor := forecastFloor s l duration } rfl rfl
      refine ⟨_, _, accepted, by rw [Catchment.formEffective_floor]; exact same, ?_, ?_, change, peak⟩
      · rw [Catchment.formEffective_floor]
        exact forecastFloor_eq s l duration
      · rw [Catchment.formEffective_effective, Catchment.formedLevel_code]
        dsimp only
        rw [forecastFloor_eq]
        split_ifs with zero
        · rw [zero]
          rfl
        · rfl
  · obtain ⟨change, peak, same⟩ := Catchment.formEffective_change (s.ds / 10) { c with floor := none } rfl rfl
    have expired : c.floorDue s.ds = true := by simp [Catchment.floorDue, floor, reached]
    have reforms : floorEvent k s = s.reformCatchment k [.floorExpired] { c with floor := none } := by
      simp only [floorEvent, defined, expired, if_true]
    exact ⟨_, _, congrArg Host.Outcome.next ((whileReleased_released released).trans reforms), same,
      Catchment.formEffective_effective _ _, change, peak⟩
  · have answered := exec_ackAlert_taken catchment taken
    refine ⟨fun out => refusedWith_of_answer answered (by simp [answerAckAlert, indexIn_out out]), ?_⟩
    rintro k rfl
    refine ⟨fun undefined => ?_, fun c defined => ⟨fun quiet => ?_, fun alert => ?_⟩⟩
    · exact refusedWith_of_answer answered (by simp only [answerAckAlert, indexIn_val, undefined])
    · exact refusedWith_of_answer answered (by simp only [answerAckAlert, indexIn_val, defined, if_pos quiet])
    · exact exec_accepted answered (by simp only [answerAckAlert, indexIn_val, defined, if_neg alert]; rfl)

end Sys2Proof.Machine
end

section
/-! PROOFS. The Level Processor: an accepted report (R22 to R36, R42) and the silence of a tank (R38, R39); CLEAR_FAULT (R56, R57). -/

namespace Sys2Proof.Machine

/-! ### What a report reads -/

theorem aboveLast_iff (points : List Point) (hpos : 0 < points.length) (x : Nat) :
    aboveLast points x = true ↔ points[points.length - 1].x < x := by
  rw [aboveLast, List.getLast?_eq_getElem?, List.getElem?_eq_getElem (by omega)]
  exact decide_eq_true_iff

/-- A restriction is in force in TRIPPED, HELD and OVERRIDDEN (R155). -/
theorem Guard.restricts_iff (g : Guard) : g.restricts = true ↔
    (∃ e, g.trip = .tripped e) ∨ (∃ a b c d, g.hold = .held a b c d) ∨ ∃ a b, g.hold = .overridden a b := by
  rw [restricts, isTripped, isHeld, isOverridden]
  cases g.trip <;> cases g.hold <;> simp

theorem State.effectiveLevel_of {s : State} {k : Fin 8} {c : Catchment} (h : s.catchments[k] = some c) :
    s.effectiveLevel k = c.effective := by
  rw [effectiveLevel, h]

/-! ### The time to spill and the imminent flag (R35, R36) -/

section
variable {level volume crest vCrest : Nat} {rate : Option Int}

theorem formTimeToSpill_above (h : crest < level) : formTimeToSpill level volume rate crest vCrest = .seconds 0 :=
  if_pos h

theorem formTimeToSpill_never (h : level ≤ crest) (falling : rate.getD 0 ≤ 0) :
    formTimeToSpill level volume rate crest vCrest = .never := by
  refine (if_neg h.not_gt).trans ?_
  cases rate with
  | none => rfl
  | some e => exact if_pos falling

theorem formTimeToSpill_rising (h : level ≤ crest) {e : Nat} (hr : rate = some (e : Int)) (rising : 0 < e) :
    formTimeToSpill level volume rate crest vCrest =
      if 604800 < ((vCrest - volume) * 100 + e - 1) / e then .never else .seconds (((vCrest - volume) * 100 + e - 1) / e) := by
  have positive : ¬(e : Int) ≤ 0 := by omega
  subst hr
  exact (if_neg h.not_gt).trans (if_neg positive)

end

theorem formImminent_iff (spill : TimeToSpill) (threshold : Nat) :
    formImminent spill threshold = true ↔ ∃ n, spill = .seconds n ∧ n ≤ threshold := by
  cases spill with
  | absent => simp [formImminent]
  | never => simp [formImminent]
  | seconds n => simp [formImminent]

/-! ### REPORT_LEVEL -/

theorem LevelState.nextRate_first {l : LevelState} (h : l.previous = none) (volume report : Nat) :
    l.nextRate volume report = l.netRate := by
  rw [nextRate, h]

theorem LevelState.nextRate_later {l : LevelState} {p : PreviousVolume} (h : l.previous = some p) (volume report : Nat) :
    l.nextRate volume report = some (smoothRate l.netRate (rateSample volume p.volume (report - p.time))) := by
  rw [nextRate, h]

/-- The notices of the level steps, where the flag passes from clear to set (R30, R36). -/
theorem LevelState.posts_eq (old new : LevelState) : old.posts new =
    (if new.aboveTable ∧ old.aboveTable = false then [.aboveTable] else []) ++
      (if new.imminent ∧ old.imminent = false then [.imminent] else []) := by
  simp [posts]

section
variable {s : State} {i : Fin 32} {level age : Nat}

theorem answerReportLevel_absent (h : s.inService i = false) : answerReportLevel i level age s = refuse .notInService s := by
  have none : s.serviceAt i = none := by simpa [State.inService] using h
  simp only [answerReportLevel, indexIn_val, none]

theorem isOldReport_iff (l : LevelState) (report : Nat) :
    isOldReport l report = true ↔ ∃ last, l.lastReport = some last ∧ report ≤ last := by
  rw [isOldReport]
  cases l.lastReport <;> simp

variable {t : Tank} {v : Service}

/-- The two outcomes for an IN_SERVICE tank. -/
theorem answerReportLevel_inService (present : s.serviceAt i = some (t, v)) :
    answerReportLevel i level age s =
      if isOldReport v.level (reportTime s.now age) then refuse .oldReport s
      else accept (t.report s i level (reportTime s.now age) v).tank.levelState.bytes
        ((s.setTank i (some (t.report s i level (reportTime s.now age) v).tank)).postTank i
          (t.report s i level (reportTime s.now age) v).posts) := by
  simp only [answerReportLevel, indexIn_val, present]

end

/-- The handling of a report by the Spill Accountant (R42, R160). -/
def Tank.reportedSpill (s : State) (level report : Nat) (t : Tank) (v : Service) : SpillStep :=
  spillReport t.defn (t.rating.getD []) s.windowHours s.guard.restricts (s.effectiveLevel t.defn.catchment) (min level 30000)
    report v.spilling t.book

/-- The service part that an accepted report leaves. -/
def Tank.reported (s : State) (i : Fin 32) (level report : Nat) (t : Tank) (v : Service) : Service :=
  let l := v.level.report t s.alloc.imminentThreshold s.ds level report
  let sup := { v.supervisor with
    levelLost := v.supervisor.levelLost && t.defn.faultReaction == .latch, reportMark := true }
  { op := formOp t.defn l sup s.orders[i].active, level := l, supervisor := sup
    spilling := (t.reportedSpill s level report v).spilling }

theorem Tank.report_eq (s : State) (i : Fin 32) (level report : Nat) (t : Tank) (v : Service) : t.report s i level report v =
    { tank := { t with
        book := (t.reportedSpill s level report v).book, service := some (t.reported s i level report v) }
      posts := v.level.posts (t.reported s i level report v).level ++ (t.reportedSpill s level report v).posts } := rfl

/-- Settles O29: the checks, and the record that `Tank.report` leaves, field by field. -/
theorem reportTaken : Obligations.ReportTaken := by
  refine ⟨aboveLast_iff, Guard.restricts_iff, fun s k c => State.effectiveLevel_of, fun s tag tank level age taken => ?_⟩
  have answered := exec_reportLevel_taken tank level age taken
  refine ⟨fun out => refusedWith_of_answer answered (by simp [answerReportLevel, indexIn_out out]), ?_⟩
  rintro i rfl
  refine ⟨fun absent => refusedWith_of_answer answered (answerReportLevel_absent absent), fun t v defined present => ?_⟩
  have outcome := answerReportLevel_inService (level := level) (age := age) (State.serviceAt_of defined present)
  refine ⟨fun last lastReport old => ?_, fun newer => ?_⟩
  · have isOld := (isOldReport_iff v.level (reportTime s.now age)).2 ⟨last, lastReport, old⟩
    exact refusedWith_of_answer answered (outcome.trans (if_pos isOld))
  · have isNew : ¬isOldReport v.level (reportTime s.now age) = true := fun isOld => by
      obtain ⟨last, lastReport, old⟩ := (isOldReport_iff v.level _).1 isOld
      exact absurd (newer last lastReport) old.not_gt
    have accepted := exec_accepted answered (outcome.trans (if_neg isNew))
    rw [Tank.report_eq, LevelState.posts_eq] at accepted
    refine ⟨_, _, _, _, _, rfl, rfl, rfl, rfl, accepted, rfl, rfl, rfl, rfl, rfl, rfl, rfl, rfl, rfl, rfl, fun first => ?_,
      fun p previous => ?_, formTimeToSpill_above, fun below => ⟨formTimeToSpill_never below, fun st e stage rate rising =>
        ⟨_, rfl, ?_⟩⟩, formImminent_iff _ _, rfl, rfl⟩
    · exact LevelState.nextRate_first first _ _
    · exact LevelState.nextRate_later previous _ _
    · have crest : (t.stage.map StageTable.vCrest).getD 0 = st.vCrest := by rw [stage]; rfl
      rw [← crest]
      exact formTimeToSpill_rising below rate rising

/-! ### The stale expiry (R38, R39) -/

section
variable {s : State} {i : Fin 32} {t : Tank} {v : Service} (present : s.serviceAt i = some (t, v))
  (expired : due v.level.staleTimer s.ds = true)
include present expired

theorem staleEvent_counts (stands : ¬((v.level.expire t.defn s.ds).expiries = t.defn.lostLimit ∧ v.supervisor.levelLost = false)) :
    staleEvent i s =
      (s.setTank i (some { t with service := some { v with level := v.level.expire t.defn s.ds } })).postTank i [.stale] := by
  simp only [staleEvent, present, expired, if_true, if_neg stands]

theorem staleEvent_loses (count : (v.level.expire t.defn s.ds).expiries = t.defn.lostLimit) (clear : v.supervisor.levelLost = false) :
    staleEvent i s = ((s.setTank i (some { t with
      book := (closeAtLastReport .lost v t.book).book
      service := some
        { op := .faulted, level := v.level.expire t.defn s.ds, supervisor := { v.supervisor with levelLost := true }
          spilling := .quiet } })).postTank i
      ([.stale, .levelLost] ++ (closeAtLastReport .lost v t.book).posts)).withdraw fun j => j == i := by
  have faulted : formOp t.defn (v.level.expire t.defn s.ds) { v.supervisor with levelLost := true } s.orders[i].active = .faulted := by
    simp [formOp, latchedFault]
  obtain ⟨quiet, -⟩ := closeAtLastReport_spec .lost v t.book
  simp only [staleEvent, present, expired, count, clear, and_self, if_true, faulted, quiet]

end

/-- Settles O30: the count at lost_limit with LEVEL_LOST clear is the one case in which the tank is lost. -/
theorem silenceIsTimed : Obligations.SilenceIsTimed := by
  intro s i t v e released defined present timer reached
  have expired : due v.level.staleTimer s.ds = true := by simp [due, timer, reached]
  have served := State.serviceAt_of defined present
  have event : exec (.staleExpiry i) s = .next (staleEvent i s) := congrArg Host.Outcome.next (whileReleased_released released)
  refine ⟨v.level.expire t.defn s.ds, rfl, fun stands => ?_, fun count clear => ?_⟩
  · have notLost : ¬((v.level.expire t.defn s.ds).expiries = t.defn.lostLimit ∧ v.supervisor.levelLost = false) := by
      rintro ⟨count, clear⟩
      rcases stands with below | set
      · omega
      · simp [clear] at set
    rw [event, staleEvent_counts served expired notLost]
  · obtain ⟨-, quiet, closed⟩ := closeAtLastReport_spec .lost v t.book
    exact ⟨_, _, _, event.trans (congrArg _ (staleEvent_loses served expired count clear)), rfl, quiet, closed⟩

/-! ### CLEAR_FAULT (R56, R57) -/

/-- Settles O31: the checks in their order, then whether a fault is held. -/
theorem faultsCleared : Obligations.FaultsCleared := by
  intro s tag tank taken
  have answered := exec_clearFault_taken tank taken
  refine ⟨fun out => refusedWith_of_answer answered (by simp [answerClearFault, indexIn_out out]), ?_⟩
  rintro i rfl
  refine ⟨fun undefined => ?_, fun t defined => ⟨fun absent => ?_, fun v present => ⟨fun stall lost => ?_, fun held => ⟨_, rfl, ?_⟩⟩⟩⟩
  · exact refusedWith_of_answer answered (by simp only [answerClearFault, indexIn_val, undefined])
  · exact refusedWith_of_answer answered (by simp only [answerClearFault, indexIn_val, defined, absent])
  · refine exec_accepted answered ?_
    simp only [answerClearFault, indexIn_val, defined, present, stall, lost, Bool.or_self, Bool.false_eq_true, if_false]
  · have holds : (v.supervisor.stall || v.supervisor.levelLost) = true := by simpa using held
    have bits : bitsOf [v.supervisor.stall, v.supervisor.levelLost] =
        (if v.supervisor.stall then 1 else 0) + (if v.supervisor.levelLost then 2 else 0) := by
      cases v.supervisor.stall <;> cases v.supervisor.levelLost <;> rfl
    rw [← bits]
    refine exec_accepted answered ?_
    simp only [answerClearFault, indexIn_val, defined, present, holds, if_true]
    rfl

end Sys2Proof.Machine
end

section
/-! PROOFS. The Drain Supervisor: stall evaluation and its stage (R47 to R54), and withdrawal from allocation with the effects of a
change of the active order (R51, R130, R132). -/

namespace Sys2Proof.Machine

/-! ### A change of the active order (R51, R130) -/

/-- The direction change of R51: both counters at a passage from or to 0, the snapshot at one to 0. -/
theorem Supervisor.turn_eq {old new : Nat} (h : old ≠ new) (v : Supervisor) : v.turn old new =
    { v with
      stallCounter := if old = 0 ∨ new = 0 then 0 else v.stallCounter
      goodCounter := if old = 0 ∨ new = 0 then 0 else v.goodCounter
      snapshot := if new = 0 then none else v.snapshot } := by
  rw [turn]
  by_cases ho : old = 0
  · have hn : new ≠ 0 := fun e => h (ho.trans e.symm)
    simp [ho, hn]
  · by_cases hn : new = 0 <;> simp [ho, hn]

/-- What writing an active order does to a record is the change of R51 and R130. -/
theorem activeChange_mapService (old new : Nat) (before : Option Tank) :
    ActiveChange old new before (before.map fun t => t.mapService (Service.activeChange t.defn old new)) := by
  refine ⟨fun same => ?_, fun changed => ?_⟩
  · subst same
    simp
  · congr 1
    funext t
    rw [Tank.mapService]
    congr 2
    funext v
    rw [Service.activeChange, if_neg changed, Supervisor.turn_eq changed]

/-! ### Withdrawal (R132) -/

/-- Settles O33: the entries and records of a zeroing, and the list without the tanks chosen. -/
theorem withdrawalZeroesOrders : Obligations.WithdrawalZeroesOrders := by
  intro s p
  refine ⟨_, rfl, ?_, fun i => ⟨fun kept => ?_, fun chosen => ⟨?_, fun idle => ?_, fun ordered => ?_⟩⟩⟩
  · apply State.ext_fields <;> simp
  · simp [kept]
  · simp [chosen]
  · have change := activeChange_mapService s.orders[i].active 0 s.tanks[i]
    simpa [chosen] using change.1 idle
  · have change := activeChange_mapService s.orders[i].active 0 s.tanks[i]
    simpa [chosen] using change.2 ordered

/-! ### Stall evaluation of one tank (R47 to R49, R52, R54) -/

theorem judgePeriod_without {fallMin : Nat} {mark : Bool} {snapshot level : Option Nat} (h : mark = false ∨ snapshot = none) :
    judgePeriod fallMin mark snapshot level = .without := by
  rcases h with rfl | rfl
  · rfl
  · cases mark <;> rfl

theorem judgePeriod_good {fallMin before after : Nat} (h : after + fallMin ≤ before) :
    judgePeriod fallMin true (some before) (some after) = .good :=
  if_pos (by omega)

theorem judgePeriod_stall {fallMin before after : Nat} (h : before < after + fallMin) :
    judgePeriod fallMin true (some before) (some after) = .stall :=
  if_neg (by omega)

section
variable {d : TankDef} {active : Nat} {v : Service}

/-- Without an order, a report mark or a snapshot there is no evidence (R48, R49). -/
theorem Service.evaluated_without (h : active = 0 ∨ v.supervisor.reportMark = false ∨ v.supervisor.snapshot = none) :
    v.evaluated d active = ({ v.supervisor with reportMark := false }, []) := by
  rw [evaluated]
  by_cases ordered : 0 < active
  · rw [if_pos ordered, Supervisor.evaluate, judgePeriod_without (h.resolve_left (by omega))]
  · rw [if_neg ordered]

variable {before after : Nat} (ordered : 0 < active) (mark : v.supervisor.reportMark = true)
  (snapshot : v.supervisor.snapshot = some before) (level : v.level.lastLevel = some after)
include ordered mark snapshot level

/-- A good period counts, and under RETRY clears STALL at N (R54). -/
theorem Service.evaluated_good (fall : after + d.fallMin ≤ before) {n : Supervisor} (hn : n = { v.supervisor with
      reportMark := false, stallCounter := 0, goodCounter := min d.stallCount (v.supervisor.goodCounter + 1)
      stall := v.supervisor.stall && !decide (d.stallCount ≤ v.supervisor.goodCounter + 1 ∧ d.faultReaction = .retry) }) :
    v.evaluated d active = (n, if v.supervisor.stall = true ∧ n.stall = false then [.stallCleared] else []) := by
  have reached : satAdd d.stallCount v.supervisor.goodCounter 1 = d.stallCount ↔ d.stallCount ≤ v.supervisor.goodCounter + 1 :=
    min_eq_left_iff
  subst hn
  rw [evaluated, if_pos ordered, Supervisor.evaluate, mark, snapshot, level, judgePeriod_good fall]
  simp only [reached]
  by_cases clears : d.stallCount ≤ v.supervisor.goodCounter + 1 ∧ d.faultReaction = .retry
  · cases v.supervisor.stall <;> simp [clears, snapshot, satAdd]
  · have stands : ¬(d.stallCount ≤ v.supervisor.goodCounter + 1 ∧ v.supervisor.stall = true ∧ d.faultReaction = .retry) := by tauto
    rw [if_neg stands]
    simp [clears, snapshot, satAdd]

/-- A period without the fall counts as a stall, and raises STALL at N (R52). -/
theorem Service.evaluated_stall (flat : before < after + d.fallMin) {n : Supervisor} (hn : n = { v.supervisor with
      reportMark := false, goodCounter := 0, stallCounter := min d.stallCount (v.supervisor.stallCounter + 1)
      stall := v.supervisor.stall || decide (d.stallCount ≤ v.supervisor.stallCounter + 1) }) :
    v.evaluated d active = (n, if v.supervisor.stall = false ∧ n.stall = true then [.stall] else []) := by
  have reached : satAdd d.stallCount v.supervisor.stallCounter 1 = d.stallCount ↔ d.stallCount ≤ v.supervisor.stallCounter + 1 :=
    min_eq_left_iff
  subst hn
  rw [evaluated, if_pos ordered, Supervisor.evaluate, mark, snapshot, level, judgePeriod_stall flat]
  simp only [reached]
  by_cases full : d.stallCount ≤ v.supervisor.stallCounter + 1
  · cases v.supervisor.stall <;> simp [full, snapshot, satAdd]
  · simp [full, snapshot, satAdd]

end

/-- The stage before the withdrawal of the tanks that latch: every tank judged, the notices posted. -/
def judgeStalls (s : State) : State :=
  (s.mapTanks fun i t => t.mapService (Service.afterStall t.defn s.orders[i].active)).postTanks fun i =>
    match s.serviceAt i with
    | some (t, v) => (v.evaluated t.defn s.orders[i].active).2
    | none => []

theorem stallStage_eq (s : State) : stallStage s = (judgeStalls s).withdraw fun i => match s.serviceAt i with
    | some (t, v) => !v.supervisor.stall && (v.evaluated t.defn s.orders[i].active).1.stall &&
        decide (t.defn.faultReaction = .latch)
    | none => false := by
  rw [stallStage, judgeStalls]
  congr 1
  funext i
  cases s.serviceAt i with
  | none => rfl
  | some p => simp [Service.stallLatches, Bool.and_comm, beq_eq_decide]

/-- Settles O32: the outcomes of one tank, and the stage, which is the service parts after it, the notices and the withdrawal. -/
theorem stallsJudgedAndLatched : Obligations.StallsJudgedAndLatched := by
  refine ⟨fun d active v => ⟨(v.evaluated d active).1, (v.evaluated d active).2, rfl, fun none => ?_, fun before after ordered mark snapshot level => ⟨fun fall => ?_, fun flat => ?_⟩⟩,
    fun s => ⟨judgeStalls s, stallStage_eq s, ?_, ?_, fun i => ?_⟩⟩
  · rw [Service.evaluated_without none]
    exact ⟨rfl, rfl⟩
  · rw [Service.evaluated_good ordered mark snapshot level fall rfl]
    exact ⟨rfl, rfl⟩
  · rw [Service.evaluated_stall ordered mark snapshot level flat rfl]
    exact ⟨rfl, rfl⟩
  · apply State.ext_fields <;> simp [judgeStalls]
  · exact postTanks_notices_congr (by simp) _
  · rw [judgeStalls, State.postTanks_tanks, State.mapTanks_tanks]
    rfl

end Sys2Proof.Machine
end

section
/-! PROOFS. The walks of the Allocator seen tank by tank, the computation (R109 to R116), promotion (R129, R130), and the allocation
run (R107). -/

namespace Sys2Proof.Machine

/-! ### A walk, tank by tank -/

/-- A walk whose step writes one tank's amount, out of the account and the amount that stood, and takes from the account what the two
amounts say. On a list without duplicates each tank gets what the account gives it at its turn. -/
theorem walk_at {step : Walk → Fin 32 → Walk} {write : Fin 32 → Nat → Nat → Nat} {taken : Nat → Nat → Nat}
    (hstep : ∀ w i, step w i = { amounts := w.amounts.set i (write i w.account w.amounts[i])
                                 account := w.account - taken w.amounts[i] (write i w.account w.amounts[i]) })
    (order : List (Fin 32)) (nodup : order.Nodup) (w r : Walk) (hr : r = order.foldl step w) :
    (∀ i, i ∉ order → r.amounts[i] = w.amounts[i]) ∧
    ∀ before i after, order = before ++ i :: after → r.amounts[i] =
      write i (w.account - (before.map fun j => taken w.amounts[j] r.amounts[j]).sum) w.amounts[i] := by
  subst hr
  induction order generalizing w with
  | nil => exact ⟨fun _ _ => rfl, fun before i after same => by simp at same⟩
  | cons k rest ih =>
    obtain ⟨fresh, distinct⟩ := List.nodup_cons.1 nodup
    obtain ⟨others, visited⟩ := ih distinct (step w k)
    have self : (step w k).amounts[k] = write k w.account w.amounts[k] := by simp [hstep]
    have other : ∀ j, j ≠ k → (step w k).amounts[j] = w.amounts[j] := fun j away => by
      have : (k : Nat) ≠ j := fun e => away (Fin.ext e.symm)
      simp [hstep, this]
    have account : (step w k).account = w.account - taken w.amounts[k] (step w k).amounts[k] := by
      rw [self, hstep]
    refine ⟨fun i out => ?_, fun before i after same => ?_⟩
    · obtain ⟨away, out⟩ := not_or.1 (fun h => out (List.mem_cons.2 h))
      exact (others i out).trans (other i away)
    · cases before with
      | nil =>
        obtain ⟨rfl, rfl⟩ := List.cons.inj same
        exact (others k fresh).trans self
      | cons j before =>
        obtain ⟨rfl, tail⟩ := List.cons.inj same
        have away : ∀ j ∈ rest, j ≠ k := fun j hj e => fresh (e ▸ hj)
        have sums : (before.map fun j => taken (step w k).amounts[j] (rest.foldl step (step w k)).amounts[j]) =
            before.map fun j => taken w.amounts[j] (rest.foldl step (step w k)).amounts[j] :=
          List.map_congr_left fun j hj => by rw [other j (away j (by simp [tail, hj]))]
        rw [List.foldl_cons, visited before i after tail, sums, other i (away i (by simp [tail])), account, List.map_cons,
          List.sum_cons, others k fresh, Nat.sub_sub]

/-! ### The available budget (R110) -/

section
variable {s : State}

theorem Guard.isTripped_iff (g : Guard) : g.isTripped = true ↔ ∃ e, g.trip = .tripped e := by
  rw [isTripped]
  cases g.trip <;> simp

theorem Guard.isHeld_iff (g : Guard) : g.isHeld = true ↔ ∃ a b c d, g.hold = .held a b c d := by
  rw [isHeld]
  cases g.hold <;> simp

theorem availableBudget_restricted (h : s.guard.isTripped = true ∨ s.guard.isHeld = true) : availableBudget s = 0 :=
  if_pos (by simpa using h)

theorem availableBudget_free (h : s.guard.isTripped = false) (hold : s.guard.isHeld = false) : availableBudget s =
    if s.guard.isOverridden then min s.alloc.budget s.alloc.overrideBudget else s.alloc.budget :=
  if_neg (by simp [h, hold])

end

/-! ### The computation (R111 to R116) -/

section
variable {s : State} {i : Fin 32}

/-- M, tank by tank (R111). -/
theorem State.manualTotal_eq (s : State) : s.manualTotal = sumTanks fun i => match s.serviceAt i with
    | some (t, v) => if t.pendingMode.mode = .manual ∧ v.op ≠ .faulted ∧ t.inhibited = false then t.pendingMode.value else 0
    | none => 0 := by
  refine congrArg sumTanks (funext fun i => ?_)
  cases h : s.serviceAt i with
  | none => simp [manualOrder, grantedManual, h]
  | some p => exact manualOrder_of_serviceAt h

/-- The grants and what remains are the automatic budget. -/
theorem State.grants_sum (s : State) : (sumTanks fun i => s.grants[i]) +
    (s.grantWalk s.grantOrder (availableBudget s - s.manualTotal)).account = availableBudget s - s.manualTotal := by
  obtain ⟨sum, -⟩ := s.grantWalk_spec s.grantOrder (availableBudget s - s.manualTotal) s.grantOrder_nodup
  exact sum

/-- While TRIPPED nothing is granted (R110, R128). -/
theorem State.grants_of_tripped (h : s.guard.isTripped = true) (i : Fin 32) : s.grants[i] = 0 := by
  have sum := s.grants_sum
  have one := le_sumTanks (fun i => s.grants[i]) i
  rw [availableBudget_restricted (.inl h)] at sum
  omega

/-- An eligible tank's next order is its grant, under AUTO. -/
theorem computation_next_of_eligible (h : s.eligible i = true) : (computation s).orders[i].next = s.grants[i] := by
  obtain ⟨t, v, present⟩ := State.eligible_inService h
  obtain ⟨auto, -⟩ := (State.eligible_of_serviceAt present).1 h
  rw [computation_entry, State.computedEntry_served present]
  dsimp only
  split_ifs with tripped
  · exact (State.grants_of_tripped tripped.1 i).symm
  · rw [State.writtenOrder, auto]

/-- What the computation leaves of an entry beside the next order and its mark. -/
theorem computation_active (s : State) (i : Fin 32) : (computation s).orders[i].active = s.orders[i].active ∧
    (computation s).orders[i].activeChanged = s.orders[i].activeChanged := by
  rw [computation_entry, State.computedEntry]
  split <;> exact ⟨rfl, rfl⟩

/-- The next order of a tank with MANUAL pending (R111, R128). -/
theorem computation_next_of_manual {t : Tank} {v : Service} (present : s.serviceAt i = some (t, v))
    (manual : t.pendingMode.mode = .manual) : (computation s).orders[i].mark = .manual ∧ (computation s).orders[i].next =
      if v.op = .faulted ∨ t.inhibited = true ∨ s.guard.isTripped = true ∧ t.inForce.mode = .auto then 0
      else t.pendingMode.value := by
  rw [computation_entry, State.computedEntry_served present, manual, State.writtenOrder, manual]
  refine ⟨rfl, ?_⟩
  simp only [State.manualOrder_of_serviceAt present, manual, true_and]
  by_cases tripped : s.guard.isTripped = true ∧ t.inForce.mode = .auto
  · simp [tripped]
  · by_cases fault : v.op = .faulted
    · simp [fault]
    · cases t.inhibited <;> simp [fault, tripped]

/-- The next order of a tank with AUTO pending is its grant (R116, R128). -/
theorem computation_next_of_auto {t : Tank} {v : Service} (present : s.serviceAt i = some (t, v))
    (auto : t.pendingMode.mode = .auto) : (computation s).orders[i].mark = .auto ∧
      (s.eligible i = false → (computation s).orders[i].next = 0) := by
  rw [computation_entry, State.computedEntry_served present, auto, State.writtenOrder, auto]
  refine ⟨rfl, fun ineligible => ?_⟩
  dsimp only
  rw [State.grants_of_not_eligible ineligible, ite_self]

/-- The grant of a tank in grant order is made out of what the tanks before it left (R116). -/
theorem State.grants_at {before after : List (Fin 32)} (h : s.grantOrder = before ++ i :: after) :
    s.grants[i] = s.grantFor i (availableBudget s - s.manualTotal - (before.map fun j => s.grants[j]).sum) := by
  obtain ⟨-, visited⟩ := walk_at (step := s.grantStep) (write := fun i account _ => s.grantFor i account) (taken := fun _ new => new)
    (fun _ _ => rfl) s.grantOrder s.grantOrder_nodup { amounts := Vector.replicate 32 0, account := availableBudget s - s.manualTotal }
    _ rfl
  exact visited before i after h

/-- The demand of R113 with its probe limit (R53). -/
theorem demand_eq (period : Nat) {t : Tank} {v : Service} {table : StageTable} {volume : Nat} (stage : t.stage = some table)
    (known : v.level.volume = some volume) {ordinary : Nat}
    (h : ordinary = min t.defn.rMax (max (((volume - table.vDry) * 100 + period - 1) / period) t.defn.rMin)) :
    demand period t v = if v.supervisor.stall = true ∧ t.defn.faultReaction = .retry
      then min ordinary (if t.defn.rMin = 0 then (t.defn.rMax + 7) / 8 else t.defn.rMin) else ordinary := by
  have same : ordinaryDemand period t v = ordinary := by
    rw [h, ordinaryDemand, stage, known]
    rfl
  have probe : probeRate t.defn = if t.defn.rMin = 0 then (t.defn.rMax + 7) / 8 else t.defn.rMin := by
    rw [probeRate, divUp]
    split_ifs <;> omega
  rw [demand, same, probe]
  simp

end

/-- What a computation leaves beside the entries and the list (R109, R111, R116). -/
theorem computation_frame (s : State) {u : State} (hu : u = computation s) : u = { s with
    orders := u.orders
    notices := if s.alloc.budget < s.manualTotal then (s.postAllocation .budgetOverrun).notices else s.notices
    alloc := { s.alloc with
      runOrder := u.alloc.runOrder, overrun := decide (s.alloc.budget < s.manualTotal)
      last := some { time := s.ds / 10, available := availableBudget s, manual := s.manualTotal
                     remaining := (s.grantWalk s.grantOrder (availableBudget s - s.manualTotal)).account } } } := by
  rw [hu, computation_eq, State.now]

theorem computation_eligible_sum (s : State) : (sumTanks fun i => if s.eligible i then (computation s).orders[i].next else 0) =
    sumTanks fun i => s.grants[i] := by
  refine congrArg sumTanks (funext fun i => ?_)
  split_ifs with eligible
  · exact computation_next_of_eligible eligible
  · exact (State.grants_of_not_eligible (Bool.eq_false_iff.2 eligible)).symm

/-- Settles O35: the frame of a computation, and its entries by the tank's pending mode and by its place in grant order. -/
theorem grantsFitTheBudget : Obligations.GrantsFitTheBudget := by
  refine ⟨fun s => ⟨fun restricted => ?_, fun free overridden => ?_, fun free none => ?_, s.guard.isTripped_iff⟩,
    fun s => ⟨computation s, s.manualTotal, _, (s.grantWalk s.grantOrder (availableBudget s - s.manualTotal)).account, rfl,
      s.manualTotal_eq, rfl, ?_, ?_, fun i => ?_, ?_⟩⟩
  · rw [← Guard.isTripped_iff, ← Guard.isHeld_iff] at restricted
    exact availableBudget_restricted restricted
  · obtain ⟨a, b, hold⟩ := overridden
    rw [availableBudget_free (Bool.eq_false_iff.2 fun h => by simpa [free] using (Guard.isTripped_iff _).1 h) (by simp [Guard.isHeld, hold])]
    simp [Guard.isOverridden, hold]
  · rw [availableBudget_free (Bool.eq_false_iff.2 fun h => by simpa [free] using (Guard.isTripped_iff _).1 h) (by simp [Guard.isHeld, none])]
    simp [Guard.isOverridden, none]
  · exact computation_frame s rfl
  · rw [computation_eligible_sum]
    exact s.grants_sum
  · obtain ⟨active, changed⟩ := computation_active s i
    refine ⟨active, changed, fun absent => ?_, fun t v defined present => ?_⟩
    · have idle : s.serviceAt i = none := by simpa [State.inService] using absent
      rw [computation_entry, State.computedEntry_idle idle]
      exact ⟨rfl, rfl⟩
    · have served := State.serviceAt_of defined present
      exact ⟨computation_next_of_manual served, computation_next_of_auto served⟩
  · intro before after i t v table volume order defined present stage known
    rw [computation_runOrder] at order
    have served := State.serviceAt_of defined present
    have eligible : ∀ j ∈ before ++ i :: after, s.eligible j = true := fun j hj => State.mem_grantOrder.1 (order ▸ hj)
    have grants : (before.map fun j => (computation s).orders[j].next) = before.map fun j => s.grants[j] :=
      List.map_congr_left fun j hj => computation_next_of_eligible (eligible j (List.mem_append_left _ hj))
    refine ⟨_, _, _, _, _, _, rfl, rfl, rfl, rfl, rfl, rfl, ?_⟩
    rw [computation_next_of_eligible (eligible i (by simp)), State.grants_at order, State.grantFor_of_serviceAt served,
      demand_eq s.alloc.period stage known rfl, grants]
    rfl

end Sys2Proof.Machine
end

section
/-! PROOFS. Starting and stopping the Allocator (R105, R106), promotion (R129, R130), and the allocation run (R107, R144). -/

namespace Sys2Proof.Machine

/-! ### START_ALLOCATION and STOP_ALLOCATION (R105, R106) -/

/-- Either whole second that encloses the exact value (log 9). -/
theorem openSecondsLeft_bounds (field : RemainingField) (expiry ds : Nat) :
    (expiry - ds) / 10 ≤ openSecondsLeft field expiry ds ∧ openSecondsLeft field expiry ds ≤ (expiry - ds + 9) / 10 := by
  simp only [openSecondsLeft]
  split_ifs <;> omega

/-- Settles O34: the start is a computation with the period timer running, the stop a zeroing of every order. -/
theorem allocationStartsAndStops : Obligations.AllocationStartsAndStops := by
  refine ⟨fun s tag taken => ?_, fun s tag taken => ?_⟩
  · have answered := exec_startAllocation_taken taken
    refine ⟨fun stopped => ⟨_, rfl, ?_⟩, fun e running timer => ⟨_, openSecondsLeft_bounds .startAllocation e s.ds, ?_⟩⟩
    · exact exec_accepted answered (if_neg (by simp [stopped]))
    · refine exec_accepted answered ((if_pos running).trans ?_)
      rw [timer]
      rfl
  · have answered := exec_stopAllocation_taken taken
    refine ⟨fun stopped => refusedWith_of_answer answered (if_neg (by simp [stopped])), fun running =>
      ⟨_, exec_accepted answered (if_pos running), ?_, fun i => ⟨?_, ?_⟩⟩⟩
    · apply State.ext_fields <;> simp [stopAllocator_alloc]
    · simp
    · have change := activeChange_mapService s.orders[i].active 0 s.tanks[i]
      simpa using change

/-! ### Promotion (R129, R130) -/

theorem promoteOrders_frame (s : State) {u : State} (hu : u = promoteOrders s) : u = { s with
    orders := u.orders, tanks := u.tanks
    alloc := { s.alloc with
      runOrder := s.alloc.runOrder.filter fun i => !s.tankIs (fun t => t.pendingMode.mode == .manual) i } } := by
  subst hu
  apply State.ext_fields <;> simp

/-- What a change of the active order leaves of a service part (R51, R130). -/
theorem Service.activeChange_parts (d : TankDef) (old new : Nat) (v : Service) {w : Service} (hw : w = v.activeChange d old new) :
    w.level = v.level ∧ w.spilling = v.spilling ∧
    (old ≠ new → w.op = formOp d v.level v.supervisor new) ∧ (old = new → w.op = v.op) ∧
    ((old = 0 ↔ new = 0) → w.supervisor = v.supervisor) ∧
    (¬(old = 0 ↔ new = 0) → w.supervisor =
      { v.supervisor with stallCounter := 0, goodCounter := 0, snapshot := w.supervisor.snapshot }) ∧
    (old ≠ 0 → new = 0 → w.supervisor.snapshot = none) := by
  subst hw
  by_cases same : old = new
  · subst same
    rw [activeChange_same]
    exact ⟨rfl, rfl, fun differs => absurd rfl differs, fun _ => rfl, fun _ => rfl, fun turns => absurd Iff.rfl turns,
      fun ordered zero => absurd zero ordered⟩
  · have turned := Supervisor.turn_eq same v.supervisor
    rw [activeChange, if_neg same]
    refine ⟨rfl, rfl, fun _ => ?_, fun equal => absurd equal same, fun keeps => ?_, fun turns => ?_, fun _ zero => ?_⟩
    · exact formOp_congr new (by rw [turned]) (by rw [turned]) rfl rfl
    · have both : ¬(old = 0 ∨ new = 0) := by omega
      have ordered : new ≠ 0 := by omega
      simp only [turned, if_neg both, if_neg ordered]
    · have one : old = 0 ∨ new = 0 := by tauto
      simp only [turned, if_pos one]
    · simp only [turned, if_pos zero]

/-- The snapshot of an ordered tank is its level; nothing else changes (R50). -/
theorem Service.takeSnapshot_parts (active : Nat) (v : Service) {w : Service} (hw : w = v.takeSnapshot active) :
    w.level = v.level ∧ w.spilling = v.spilling ∧ w.op = v.op ∧
    w.supervisor = { v.supervisor with snapshot := w.supervisor.snapshot } ∧
    (0 < active → w.supervisor.snapshot = v.level.lastLevel) ∧ (active = 0 → w = v) := by
  subst hw
  rw [takeSnapshot]
  split_ifs with ordered
  · exact ⟨rfl, rfl, rfl, rfl, fun _ => rfl, fun zero => absurd ordered (by omega)⟩
  · exact ⟨rfl, rfl, rfl, rfl, fun positive => absurd positive ordered, fun _ => rfl⟩

/-- The service part after promotion: the effects of the change of its active order, and then the snapshot. -/
theorem Service.promoted_parts (d : TankDef) (old new : Nat) (v : Service) {w : Service}
    (hw : w = (v.activeChange d old new).takeSnapshot new) :
    w.level = v.level ∧ w.spilling = v.spilling ∧
    (old ≠ new → w.op = formOp d v.level v.supervisor new) ∧ (old = new → w.op = v.op) ∧
    (0 < new → w.supervisor.snapshot = v.level.lastLevel) ∧
    ((old = 0 ↔ new = 0) → w.supervisor = { v.supervisor with snapshot := w.supervisor.snapshot }) ∧
    (¬(old = 0 ↔ new = 0) →
      w.supervisor = { v.supervisor with stallCounter := 0, goodCounter := 0, snapshot := w.supervisor.snapshot }) ∧
    (old ≠ 0 → new = 0 → w.supervisor.snapshot = none) := by
  obtain ⟨level, spilling, opChanged, opSame, keeps, turns, drops⟩ := v.activeChange_parts d old new rfl
  obtain ⟨level', spilling', op', supervisor', ordered, idle⟩ := Service.takeSnapshot_parts new _ hw
  exact ⟨level'.trans level, spilling'.trans spilling, fun differs => op'.trans (opChanged differs),
    fun same => op'.trans (opSame same), fun positive => (ordered positive).trans (congrArg LevelState.lastLevel level),
    fun same => supervisor'.trans (by rw [keeps same]), fun turned => supervisor'.trans (by rw [turns turned]),
    fun before zero => idle zero ▸ drops before zero⟩

/-- The active order after promotion, by the tank (R129). -/
theorem Slot.promoted_eq (x : Slot) : (x.tank = none → x.promoted = 0) ∧
    ∀ t, x.tank = some t → (t.service = none → x.promoted = 0) ∧
      ∀ v, t.service = some v → x.promoted = if x.order.mark = t.pendingMode.mode.mark then x.order.next else 0 := by
  refine ⟨fun undefined => by rw [promoted, undefined], fun t defined => ⟨fun absent => ?_, fun v present => ?_⟩⟩
  · rw [promoted, defined]
    simp [absent]
  · rw [promoted, defined]
    simp [present]

/-- An entry after promotion: the active order of R129, with its flag, and nothing else. -/
theorem promoteOrders_entry (s : State) (i : Fin 32) :
    (promoteOrders s).orders[i].active = (s.slot i).promoted ∧ (promoteOrders s).orders[i].next = s.orders[i].next ∧
    (promoteOrders s).orders[i].mark = s.orders[i].mark ∧ (promoteOrders s).orders[i].activeChanged =
      (s.orders[i].activeChanged || (s.slot i).promoted != s.orders[i].active) := by
  rw [promoteOrders_order, OrderEntry.withActive_eq]
  exact ⟨rfl, rfl, rfl, rfl⟩

/-- Settles O37: the entries and records that promotion leaves, the service part by the change of its active order and the snapshot. -/
theorem promotionPutsInForce : Obligations.PromotionPutsInForce := by
  refine fun s => ⟨_, rfl, promoteOrders_frame s rfl, fun i => ?_⟩
  obtain ⟨active, next, mark, changed⟩ := promoteOrders_entry s i
  obtain ⟨undefined, defined⟩ := (s.slot i).promoted_eq
  have tank := promoteOrders_tank s (i := i)
  rw [active]
  refine ⟨next, mark, changed, fun none => ⟨undefined none, by rw [tank, none]; rfl⟩, fun t ht => ?_⟩
  obtain ⟨offline, inService⟩ := defined t ht
  refine ⟨fun absent => ⟨offline absent, ?_⟩, fun v present => ⟨inService v present, _, ?_, Service.promoted_parts _ _ _ v rfl⟩⟩
  · rw [tank, ht]
    simp [Tank.mapService, absent]
  · rw [tank, ht]
    simp [Tank.mapService, present]

/-! ### The allocation run (R107, R144) -/

/-- The news of R144 follows the sums of the active orders (R131). -/
theorem promotion_eq (a : State) : promotion a =
    if (sumTanks fun i => a.orders[i].active) < (sumTanks fun i => (promoteOrders a).orders[i].active)
    then sumRose (promoteOrders a) else promoteOrders a := by
  rw [promotion, State.activeTotal, State.activeTotal]

theorem run_period (s : State) : (computation (promotion (stallStage s))).alloc.period = s.alloc.period := by
  have stalls : (stallStage s).alloc.period = s.alloc.period := by simp [stallStage]
  rw [computation_alloc, promotion_alloc, stalls]

/-- Settles O38: the run is its three stages, and the news is read off the trip state. -/
theorem runHasThreeStages : Obligations.RunHasThreeStages := by
  refine ⟨fun s e released running timer reached => ⟨_, promotion (stallStage s), _, rfl, promotion_eq _, rfl, ?_⟩, fun s =>
    ⟨fun f armed some => ?_, fun f armed none => ?_, fun e blanked some => ?_, fun e blanked none => ?_, fun e tripped => ?_⟩⟩
  · have expired : (s.alloc.running && due s.alloc.periodTimer s.ds) = true := by simp [due, running, timer, reached]
    have runs := (whileReleased_released released).trans (runEvent_of_due expired)
    have ds : (computation (promotion (stallStage s))).ds = s.ds := by simp
    refine (congrArg Host.Outcome.next runs).trans ?_
    simp only [State.startPeriod, startTimer, run_period, ds]
  · rw [sumRose, armed]
    exact if_neg (by omega)
  · rw [sumRose, armed]
    exact if_pos none
  · rw [sumRose, blanked]
    exact if_neg (by omega)
  · rw [sumRose, blanked]
    exact if_pos none
  · rw [sumRose, tripped]

end Sys2Proof.Machine
end

section
/-! PROOFS. The shed (R118 to R122), the selection of a bank (R100 to R103), and the reading of the orders (R136, R137). -/

namespace Sys2Proof.Machine

/-! ### One walk of a shed (R120, R121) -/

/-- What a shed leaves of one order: the order where the account is within the allowance, and else the order cut by the excess, or 0
where that leaves less than Rmin (R120). -/
def shedKept (rMin allowance account order : Nat) : Nat :=
  if account ≤ allowance then order
  else if order - min order (account - allowance) < rMin then 0 else order - min order (account - allowance)

/-- An order of 0 is left at 0. -/
theorem shedKept_zero (rMin allowance account : Nat) : shedKept rMin allowance account 0 = 0 := by
  simp [shedKept]

/-- One step of the walk writes what is kept and takes the cut from the account. -/
theorem shedStep_eq (rMin : Fin 32 → Nat) (allowance : Nat) (w : Walk) (i : Fin 32) : shedStep rMin allowance w i =
    { amounts := w.amounts.set i (shedKept (rMin i) allowance w.account w.amounts[i])
      account := w.account - (w.amounts[i] - shedKept (rMin i) allowance w.account w.amounts[i]) } := by
  by_cases stands : w.account ≤ allowance ∨ w.amounts[i] = 0
  · have kept : shedKept (rMin i) allowance w.account w.amounts[i] = w.amounts[i] := by
      rcases stands with within | zero
      · exact if_pos within
      · rw [zero, shedKept_zero]
    rw [kept, Nat.sub_self, Nat.sub_zero]
    exact (if_pos stands).trans (by simp)
  · have exceeds : ¬w.account ≤ allowance := fun h => stands (.inl h)
    rw [shedKept, if_neg exceeds]
    exact if_neg stands

section
variable (s : State) (automatic manual : Fin 32 → Bool) (amount : Fin 32 → Nat)

theorem mem_shedOrder_automatic {runOrder : List (Fin 32)} {i : Fin 32} (h : i ∈ shedOrder automatic amount runOrder) :
    automatic i = true := by
  simp only [shedOrder, List.mem_append, List.mem_filter, Bool.and_eq_true] at h
  rcases h with ⟨-, ⟨auto, -⟩, -⟩ | ⟨-, auto⟩ <;> exact auto

/-- Tanks outside the list and tanks in it: the shed order holds none twice where the list does not. -/
theorem shedOrder_nodup {runOrder : List (Fin 32)} (h : runOrder.Nodup) : (shedOrder automatic amount runOrder).Nodup := by
  refine List.nodup_append.2 ⟨(List.nodup_reverse.2 (List.nodup_finRange 32)).filter _, (List.nodup_reverse.2 h).filter _, ?_⟩
  rintro i outside j inside rfl
  simp only [List.mem_filter, Bool.and_eq_true, Bool.not_eq_true', List.contains_eq_mem, decide_eq_false_iff_not,
    List.mem_reverse] at outside inside
  exact outside.2.2 inside.1

/-- The walk as R119 to R121 say it, on a list without duplicates. -/
theorem shedWalk_leaves (b : Nat) (nodup : s.alloc.runOrder.Nodup) {new : Fin 32 → Nat}
    (hn : ∀ i, new i = (shedWalk (s.putBudget b) automatic manual amount).amounts[i]) :
    ShedLeaves s b automatic manual amount new := by
  obtain ⟨others, visited⟩ := walk_at (shedStep_eq (s.putBudget b).rMinAt (b - sumTanks fun i => if manual i then amount i else 0))
    (taken := fun old new => old - new) (shedOrder automatic amount s.alloc.runOrder) (shedOrder_nodup automatic amount nodup)
    { amounts := Vector.ofFn amount, account := sumTanks fun i => if automatic i then amount i else 0 }
    (shedWalk (s.putBudget b) automatic manual amount) rfl
  have start : ∀ i : Fin 32, (Vector.ofFn amount)[i] = amount i := fun i => by simp
  refine ⟨_, rfl, fun i out => ?_, fun before i after same => ⟨_, _, _, rfl, rfl, rfl, ?_⟩⟩
  · rw [hn, others i out, start]
  · have turn := visited before i after same
    simp only [start] at turn
    simp only [hn]
    exact turn

/-- A walk leaves every order that is not automatic. -/
theorem shedWalk_manual {i : Fin 32} (h : automatic i = false) : (shedWalk s automatic manual amount).amounts[i] = amount i := by
  obtain ⟨r, hr, -, others, -⟩ := shedFold_spec s.rMinAt (s.alloc.budget - sumTanks fun j => if manual j then amount j else 0)
    automatic (shedOrder automatic amount s.alloc.runOrder)
    { amounts := Vector.ofFn amount, account := sumTanks fun j => if automatic j then amount j else 0 }
    (fun j hj => mem_shedOrder_automatic automatic amount hj) (by simp)
  have walk : shedWalk s automatic manual amount = r := hr.symm
  have out : i ∉ shedOrder automatic amount s.alloc.runOrder := fun hi => by
    simp [mem_shedOrder_automatic automatic amount hi] at h
  rw [walk, others i out]
  simp

/-- A walk lets every order fall or stand, and what is cut is 0 or at least Rmin. -/
theorem shedWalk_bounds (i : Fin 32) : (shedWalk s automatic manual amount).amounts[i] ≤ amount i ∧
    ((shedWalk s automatic manual amount).amounts[i] ≠ amount i → (shedWalk s automatic manual amount).amounts[i] = 0 ∨
      s.rMinAt i ≤ (shedWalk s automatic manual amount).amounts[i]) := by
  rcases shedWalk_cut s i automatic manual amount with same | ⟨le, kept⟩
  · exact ⟨same.le, fun differs => absurd same differs⟩
  · exact ⟨le, fun _ => kept⟩

end

/-! ### The shed (R118, R122) -/

theorem OrderEntry.ext_fields {e f : OrderEntry} (active : e.active = f.active) (next : e.next = f.next) (mark : e.mark = f.mark)
    (activeChanged : e.activeChanged = f.activeChanged) : e = f := by
  cases e
  cases f
  subst_vars
  rfl

section
variable (s : State) (i : Fin 32)

theorem shed_entry : (shed s).orders[i].active = (shedActive s)[i] ∧ (shed s).orders[i].next = (shedNext s)[i] ∧
    (shed s).orders[i].mark = s.orders[i].mark ∧
    (shed s).orders[i].activeChanged = (s.orders[i].activeChanged || (shedActive s)[i] != s.orders[i].active) := by
  have entry : (shed s).orders[i] = ((s.slot i).write (shedActive s)[i] (shedNext s)[i]).order :=
    congrArg Slot.order (shed_slot_eq s i)
  rw [entry, Slot.write, OrderEntry.withActive_eq]
  exact ⟨rfl, rfl, rfl, rfl⟩

theorem shed_tank : ActiveChange s.orders[i].active (shedActive s)[i] s.tanks[i] (shed s).tanks[i] := by
  have tank : (shed s).tanks[i] = ((s.slot i).write (shedActive s)[i] (shedNext s)[i]).tank :=
    congrArg Slot.tank (shed_slot_eq s i)
  rw [tank]
  exact activeChange_mapService _ _ _

theorem shedChanges_iff : shedChanges s = true ↔
    ∃ i : Fin 32, (shedActive s)[i] ≠ s.orders[i].active ∨ (shedNext s)[i] ≠ s.orders[i].next := by
  simp [shedChanges]

theorem shed_notices : (shed s).notices = if shedChanges s then (s.postAllocation .budgetShed).notices else s.notices := by
  rw [shed]
  split
  · exact postAllocation_notices_congr (by simp) _
  · simp

/-- A shed touches orders, records and notices alone. -/
theorem shed_frame {u : State} (hu : u = shed s) :
    u = { s with orders := u.orders, tanks := u.tanks, notices := u.notices } := by
  subst hu
  apply State.ext_fields <;> simp


end

/-- Settles O39: a fall of B while RUNNING is the shed with the new B, whose two walks are those of R120 and R121. -/
theorem shedFitsTheBudget : Obligations.ShedFitsTheBudget := by
  intro s b
  refine ⟨fun stays => ?_, fun running falls => ⟨shed (s.putBudget b), ?_, ?_, shed_frame _ rfl, fun i => ?_, fun nodup => ⟨?_, ?_⟩,
    fun changed => ?_, fun same => ⟨?_, ?_⟩⟩⟩
  · have stands : ¬(s.alloc.running = true ∧ b < s.alloc.budget) := fun h => by
      rcases stays with stopped | above
      · simp [stopped] at h
      · omega
    rw [setBudget_eq, if_neg stands]
    rfl
  · rw [setBudget_eq, if_pos ⟨running, falls⟩]
  · rw [ordersWithinBudget_iff, shed_alloc]
    exact shed_fit (s.putBudget b)
  · obtain ⟨active, next, mark, changed⟩ := shed_entry (s.putBudget b) i
    obtain ⟨activeLe, activeCut⟩ := shedWalk_bounds (s.putBudget b) s.autoActive s.manualActive (fun i => s.orders[i].active) i
    obtain ⟨nextLe, nextCut⟩ := shedWalk_bounds (s.putBudget b) s.autoNext s.manualNext (fun i => s.orders[i].next) i
    rw [active, next]
    exact ⟨activeLe, nextLe, mark, changed, shed_tank (s.putBudget b) i,
      shedWalk_manual (s.putBudget b) s.autoActive s.manualActive fun i => s.orders[i].active,
      shedWalk_manual (s.putBudget b) s.autoNext s.manualNext fun i => s.orders[i].next, activeCut, nextCut⟩
  · exact shedWalk_leaves s _ _ _ b nodup fun i => (shed_entry (s.putBudget b) i).1
  · exact shedWalk_leaves s _ _ _ b nodup fun i => (shed_entry (s.putBudget b) i).2.1
  · obtain ⟨i, differs⟩ := changed
    obtain ⟨active, next, -⟩ := shed_entry (s.putBudget b) i
    rw [active, next] at differs
    rw [shed_notices, if_pos ((shedChanges_iff _).2 ⟨i, differs⟩)]
    rfl
  · have none : ¬shedChanges (s.putBudget b) = true := fun changes => by
      obtain ⟨i, differs⟩ := (shedChanges_iff _).1 changes
      obtain ⟨active, next, -⟩ := shed_entry (s.putBudget b) i
      rw [← active, ← next] at differs
      rcases differs with h | h
      · exact h (same i).1
      · exact h (same i).2
    rw [shed_notices, if_neg none]
    rfl
  · refine Vector.ext fun j hj => ?_
    obtain ⟨active, next, mark, changed⟩ := shed_entry (s.putBudget b) ⟨j, hj⟩
    obtain ⟨sameActive, sameNext⟩ := same ⟨j, hj⟩
    refine OrderEntry.ext_fields sameActive sameNext mark ?_
    rw [← active] at changed
    refine changed.trans ?_
    rw [sameActive]
    simp [State.putBudget]

/-! ### The selection of a bank (R100 to R103) -/

/-- Settles O40: SET_BANK by whether the bank is the one in force, a line by the number it then gives, the expiry as it stands. -/
theorem bankSelectionSettles : Obligations.BankSelectionSettles := by
  refine ⟨fun s tag bank budget taken => ?_, fun s line level k lines released changed seen number => ?_, fun s e released timer reached => ?_⟩
  · have answered := exec_setBank_taken bank budget taken
    refine ⟨fun out => refusedWith_of_answer answered (by simp [answerSetBank, indexIn_out out]), ?_⟩
    rintro k rfl
    refine ⟨_, rfl, fun other => ?_, fun selected => ?_⟩
    · refine exec_accepted answered ?_
      simp [answerSetBank, indexIn_val, other, joinFields]
    · refine exec_accepted answered ?_
      simp [answerSetBank, indexIn_val, selected, joinFields]
  · have observed : capSelNumber lines = k := Fin.ext (by
      rw [number, capSelNumber]
      cases lines[0] <;> cases lines[1] <;> cases lines[2] <;> rfl)
    subst seen
    have event := whileReleased_released (event := capSelEvent)
      (s := { s with pins := { s.pins with capSel := s.pins.capSel.set line level } }) (by exact released)
    refine congrArg Host.Outcome.next ((if_neg changed).trans (event.trans ?_))
    simp only [capSelEvent, observed]
    rfl
  · have expired : due s.alloc.settleTimer s.ds = true := by simp [due, timer, reached]
    exact congrArg Host.Outcome.next ((whileReleased_released released).trans (if_pos expired))

/-! ### READ_ORDERS (R136, R137) -/

/-- The five bytes of one tank. -/
theorem State.orderBytes_eq (s : State) (i : Fin 32) : s.orderBytes i =
    bytesOf 2 s.orders[i].active ++ bytesOf 2 s.orders[i].next ++
      bytesOf 1 ((match s.orders[i].mark with | .noMark => 0 | .auto => 1 | .manual => 2) +
        4 * (match s.tanks[i] with
          | some t => if t.inForce.mode = .manual then 1 else 0
          | none => Config.unstated .undefinedTankMode % 2) +
        (if s.orders[i].activeChanged then 8 else 0)) := by
  have mark : s.orders[i].mark.code = match s.orders[i].mark with | .noMark => 0 | .auto => 1 | .manual => 2 := by
    cases s.orders[i].mark <;> rfl
  have mode : s.modeBit i = match s.tanks[i] with
      | some t => if t.inForce.mode = .manual then 1 else 0
      | none => Config.unstated .undefinedTankMode % 2 := by
    rw [modeBit]
    cases s.tanks[i] with
    | none => rfl
    | some t => cases h : t.inForce.mode <;> simp [Mode.code, h]
  have changed : 8 * flagCode s.orders[i].activeChanged = if s.orders[i].activeChanged then 8 else 0 := by
    cases s.orders[i].activeChanged <;> rfl
  rw [orderBytes, mark, mode, changed]
  simp [joinFields]

theorem State.ordersPayload_eq (s : State) : s.ordersPayload =
    bytesOf 1 (if s.alloc.running then 1 else 0) ++
      (match s.alloc.periodTimer with
        | some e => bytesOf 2 ((e - s.ds + 9) / 10)
        | none => [255, 255]) ++
      bytesOf 1 (match s.guard.trip with | .armed _ => 0 | .blanked _ => 1 | .tripped _ => 2) ++
      bytesOf 1 (match s.guard.hold with | .noHold => 0 | .held _ _ _ _ => 1 | .overridden _ _ => 2) ++
      (List.finRange 32).flatMap s.orderBytes := by
  have timer : timerField 2 s.alloc.periodTimer (fun e => secondsLeft e s.ds) = match s.alloc.periodTimer with
      | some e => bytesOf 2 ((e - s.ds + 9) / 10)
      | none => [255, 255] := by
    cases s.alloc.periodTimer <;> rfl
  have trip : s.guard.trip.code = match s.guard.trip with | .armed _ => 0 | .blanked _ => 1 | .tripped _ => 2 := by
    cases s.guard.trip <;> rfl
  have hold : s.guard.hold.code = match s.guard.hold with | .noHold => 0 | .held _ _ _ _ => 1 | .overridden _ _ => 2 := by
    cases s.guard.hold <;> rfl
  rw [ordersPayload, timer, trip, hold]
  simp [joinFields, flagCode]

/-- Settles O41: the payload by its parts; the state that follows is the answer's own. -/
theorem ordersReadAndFlagsCleared : Obligations.OrdersReadAndFlagsCleared := by
  refine ⟨Config.unstated .undefinedTankMode % 2, by omega, fun s tag taken => ?_⟩
  have payload := s.ordersPayload_eq
  rw [funext s.orderBytes_eq] at payload
  refine (exec_accepted (exec_readOrders_taken taken) rfl).trans (congrArg Host.Outcome.next ?_)
  exact congrArg (fun bytes => State.replied tag .ok bytes _) payload

end Sys2Proof.Machine
end

section
/-! PROOFS. The Intake Guard: entry into TRIPPED (R140 to R143, R133, R155), the ends of its states (R145 to R147), and the works hold
(R149 to R153). -/

namespace Sys2Proof.Machine

/-! ### Restricted spills (R155) -/

/-- A service part with its open event flagged as restricted. -/
def Service.flagged (v : Service) : Service :=
  { v with spilling := v.spilling.restrict }

theorem Service.flagged_eq (v : Service) : v.flagged = { v with spilling := match v.spilling with
    | .event e => .event { e with restricted := true }
    | .candidate c => .candidate c
    | .quiet => .quiet } := by
  rw [flagged]
  cases v.spilling <;> rfl

theorem State.flagSpills_tank (s : State) (i : Fin 32) :
    s.flagSpills.tanks[i] = (s.tanks[i]).map fun t => t.mapService Service.flagged :=
  State.mapTanks_tanks s i _

/-- The flag and a change of the active order do not meet. -/
theorem Service.flagged_activeChange (d : TankDef) (old new : Nat) (v : Service) :
    (v.activeChange d old new).flagged = v.flagged.activeChange d old new := by
  rw [activeChange, activeChange]
  split_ifs <;> rfl

theorem Tank.flagged_activeChange (t : Tank) (d : TankDef) (old new : Nat) :
    (t.mapService (Service.activeChange d old new)).mapService Service.flagged =
      (t.mapService Service.flagged).mapService (Service.activeChange d old new) := by
  simp only [mapService, Option.map_map, Function.comp_def, Service.flagged_activeChange]

theorem Tank.mapService_absent {t : Tank} (h : t.service = none) (f : Service → Service) : t.mapService f = t := by
  cases t
  simp_all [mapService]

theorem Tank.mapService_present {t : Tank} {v : Service} (h : t.service = some v) (f : Service → Service) :
    t.mapService f = { t with service := some (f v) } := by
  rw [mapService, h]
  rfl

/-! ### Entry into TRIPPED (R133, R143) -/

section
variable (s : State) {i : Fin 32}

theorem enterTripped_order : (enterTripped s).orders[i] = if s.autoInService i then
    { active := 0, next := 0, mark := s.orders[i].mark, activeChanged := s.orders[i].activeChanged || s.orders[i].active != 0 }
    else s.orders[i] := by
  have order := congrArg Slot.order (enterTripped_slot s i)
  refine order.trans ?_
  split_ifs
  · simp only [Slot.write, OrderEntry.withActive_eq, bne_comm (a := (0 : Nat))]
    exact rfl
  · rfl

theorem enterTripped_tank_auto (h : s.autoInService i = true) : (enterTripped s).tanks[i] =
    ((s.tanks[i]).map fun t => t.mapService Service.flagged).map fun t =>
      t.mapService (Service.activeChange t.defn s.orders[i].active 0) := by
  have tank := congrArg Slot.tank (enterTripped_slot s i)
  rw [h] at tank
  refine tank.trans ((Option.map_map ..).trans ?_)
  rw [Option.map_map]
  exact congrArg (fun f => Option.map f s.tanks[i]) (funext fun t => t.flagged_activeChange _ _ _)

theorem enterTripped_tank_other (h : s.autoInService i = false) : (enterTripped s).tanks[i] =
    (s.tanks[i]).map fun t => t.mapService Service.flagged := by
  have tank := congrArg Slot.tank (enterTripped_slot s i)
  rw [h] at tank
  exact tank

theorem enterTripped_notices : (enterTripped s).notices = (s.postAllocation .trip).notices := by
  rw [enterTripped]
  exact postAllocation_notices_congr (by simp) _

theorem enterTripped_frame {u : State} (hu : u = enterTripped s) : u = { s with
    tanks := u.tanks, orders := u.orders, notices := (s.postAllocation .trip).notices
    guard := { s.guard with
      trip := .tripped (s.ds + 10 * s.guard.offTime), tripCount := min 65535 (s.guard.tripCount + 1) } } := by
  subst hu
  apply State.ext_fields
  case notices => simp only [enterTripped_notices]
  case guard => simp only [enterTripped_guard, satAdd, max16]
  all_goals simp

end

/-- The filter of ARMED is started by an asserted line, and with F at 0 completes at once (R142, R143). -/
theorem startFilter_of_pos {s : State} (h : 0 < s.guard.filterTime) :
    startFilter s = s.setTrip (.armed (some (s.ds + 10 * s.guard.filterTime))) :=
  if_neg (by omega)

theorem startFilter_of_zero {s : State} (h : s.guard.filterTime = 0) : startFilter s = enterTripped s :=
  if_pos h

/-- A change of INTAKE_HIGH at a released part is the event of its new level. -/
theorem exec_intakeHighChange_released {s : State} {level : Bool} (released : s.resetAsserted = false)
    (changed : s.pins.intakeHigh ≠ level) : exec (.intakeHighChange level) s =
      .next (intakeEvent level { s with pins := { s.pins with intakeHigh := level } }) :=
  congrArg Host.Outcome.next ((if_neg changed).trans (whileReleased_released (by exact released)))

/-- Settles O42: entry into TRIPPED by the tank's mode in force, the filter expiry, and a change of the line by the trip state. -/
theorem tripEntered : Obligations.TripEntered := by
  refine ⟨fun s => ⟨_, rfl, enterTripped_frame s rfl, fun i => ?_⟩, fun s e released armed reached => ?_,
    fun s level released changed => ⟨_, rfl, ?_⟩⟩
  · have order := enterTripped_order s (i := i)
    refine ⟨fun absent => ?_, fun t v defined present => ⟨_, v.flagged, v.flagged_eq, rfl, fun manual => ?_, fun auto => ?_⟩⟩
    · have other : s.autoInService i = false := Bool.eq_false_iff.2 fun auto => by
        obtain ⟨t, defined, present, -⟩ := (s.autoInService_iff i).1 auto
        obtain ⟨v, present⟩ := Option.isSome_iff_exists.1 present
        have served := State.serviceAt_of defined present
        simp [State.inService, served] at absent
      rw [order, enterTripped_tank_other s other, other]
      refine ⟨rfl, ?_⟩
      cases defined : s.tanks[i] with
      | none => rfl
      | some t =>
        have idle : t.service = none := by
          rw [State.inService_eq, defined] at absent
          simpa [isInService] using absent
        exact congrArg some (Tank.mapService_absent idle _)
    · have other : s.autoInService i = false := by simp [State.autoInService, State.tankIs_of defined, manual]
      rw [order, enterTripped_tank_other s other, defined, other]
      exact ⟨rfl, congrArg some (Tank.mapService_present present _)⟩
    · have chosen : s.autoInService i = true := by simp [State.autoInService, State.tankIs_of defined, auto, present]
      rw [order, enterTripped_tank_auto s chosen, defined, chosen, Option.map_some, Tank.mapService_present present]
      exact ⟨rfl, activeChange_mapService _ _ _⟩
  · have expired : due (some e) s.ds = true := by simp [due, reached]
    have enters : filterEvent s = enterTripped s := by simp only [filterEvent, armed, expired, if_true]
    exact congrArg Host.Outcome.next ((whileReleased_released released).trans enters)
  · rw [exec_intakeHighChange_released released changed, intakeEvent]
    dsimp only
    refine ⟨fun notArmed => ?_, fun f armed => ⟨?_, ?_, ?_⟩⟩
    · cases trip : s.guard.trip with
      | armed f => exact absurd trip (notArmed f)
      | blanked | tripped => rfl
    · rintro rfl
      rw [armed]
      rfl
    · rintro rfl filters
      rw [armed]
      exact congrArg Host.Outcome.next (startFilter_of_pos (by exact filters))
    · rintro rfl none
      rw [armed]
      exact congrArg Host.Outcome.next (startFilter_of_zero (by exact none))

/-! ### The ends of the trip states (R145 to R147) -/

/-- An extra run is a computation while RUNNING (R108). -/
theorem extraRun_of_alloc {s u : State} (h : u.alloc = s.alloc) :
    extraRun u = if s.alloc.running then computation u else u := by
  rw [extraRun, h]

theorem leaveTripped_alloc (s : State) : (leaveTripped s).alloc = s.alloc := by
  rw [leaveTripped]
  split
  · exact (TripMoves.keeps TripMove.alloc (enterArmed_moves _)).trans (by simp)
  · simp [enterBlanked]

theorem Trip.bytesOf_code (t : Trip) : bytesOf 1 t.code = [match t with | .armed _ => 0 | .blanked _ => 1 | .tripped _ => 2] := by
  cases t <;> rfl

/-- Settles O43: ARMED entered by the line, the three ways that lead to it, and what RESUME makes of S. -/
theorem tripEnds : Obligations.TripEnds := by
  refine ⟨fun s => ⟨fun low => if_neg (by simp [low]), fun high filters => (if_pos high).trans ?_, fun high none => (if_pos high).trans ?_⟩,
    fun s e released blanked reached => ?_, fun s e released tripped reached => ⟨fun high => ?_, fun low => ⟨_, rfl, ?_⟩⟩,
    fun s tag taken => ⟨fun notTripped => ?_, fun e tripped => ⟨leaveTripped s, fun blanks => ?_, fun none => ?_, ?_⟩⟩⟩
  · rw [startFilter_of_pos (by exact filters)]
    rfl
  · exact startFilter_of_zero (by exact none)
  · have enters : blankEvent s = enterArmed s := by simp only [blankEvent, blanked, reached, if_true]
    exact congrArg Host.Outcome.next ((whileReleased_released released).trans enters)
  · have lengthens : offEvent s = { s with guard := { s.guard with
        trip := .tripped (s.ds + 10 * s.guard.offTime), extensionCount := min 65535 (s.guard.extensionCount + 1) } } := by
      simp only [offEvent, tripped, reached, if_true, high]
      rfl
    exact congrArg Host.Outcome.next ((whileReleased_released released).trans lengthens)
  · have ends : offEvent s = extraRun ((s.setTrip (.armed none)).postAllocation .tripCleared) := by
      simp only [offEvent, tripped, reached, if_true, low, Bool.false_eq_true, if_false]
    rw [extraRun_of_alloc (s := s) (by simp)] at ends
    exact congrArg Host.Outcome.next ((whileReleased_released released).trans ends)
  · have stands : ¬s.guard.isTripped = true := fun h => by
      obtain ⟨e, tripped⟩ := s.guard.isTripped_iff.1 h
      exact notTripped e tripped
    exact refusedWith_of_answer (exec_resume_taken taken) (if_neg stands)
  · exact if_neg (by omega)
  · exact if_pos none
  · have accepted := exec_accepted (exec_resume_taken taken) (if_pos (s.guard.isTripped_iff.2 ⟨e, tripped⟩))
    rw [extraRun_of_alloc (leaveTripped_alloc s)] at accepted
    exact accepted.trans (congrArg (fun code => Host.Outcome.next (State.replied tag .ok code _)) (Trip.bytesOf_code _))

/-! ### The works hold (R149 to R153) -/

/-- A record with its open event flagged, written out. -/
theorem mapService_flagged (before : Option Tank) : (before.map fun t => t.mapService Service.flagged) = before.map fun t =>
    { t with service := t.service.map fun v => { v with spilling := match v.spilling with
        | .event e => .event { e with restricted := true }
        | .candidate c => .candidate c
        | .quiet => .quiet } } := by
  rw [funext Service.flagged_eq]
  exact rfl

/-- The next-only zeroing of R134. -/
theorem State.zeroAutoNext_orders (s : State) :
    s.zeroAutoNext.orders = s.orders.map fun e => if e.mark = .auto then { e with next := 0 } else e := by
  refine Vector.ext fun i hi => ?_
  by_cases auto : s.orders[i].mark = .auto <;> simp [zeroAutoNext, auto]

/-- A hold that starts flags the spills and zeroes the automatic next orders (R134, R150, R155). -/
theorem startHold_frame (s : State) (duration : Nat) {u : State} (hu : u = startHold duration s) : u = { s with
    guard := { s.guard with
      hold := .held (s.ds / 10) (s.ds / 10 + s.guard.longestHold) (s.ds / 10 + min duration s.guard.longestHold)
        (s.ds + 10 * min duration s.guard.longestHold) }
    orders := s.orders.map fun e => if e.mark = .auto then { e with next := 0 } else e
    tanks := u.tanks } := by
  subst hu
  apply State.ext_fields
  case orders => simp [startHold, State.zeroAutoNext_orders]
  all_goals simp [startHold, State.now]

theorem startHold_tank (s : State) (duration : Nat) (i : Fin 32) : (startHold duration s).tanks[i] =
    (s.tanks[i]).map fun t => t.mapService Service.flagged := by
  rw [startHold, State.flagSpills_tank, State.zeroAutoNext_tanks, State.setHold_tanks]

/-- A timer just started has a whole number of seconds left. -/
theorem openSecondsLeft_started (field : RemainingField) (ds seconds : Nat) :
    openSecondsLeft field (ds + 10 * seconds) ds = seconds := by
  simp [openSecondsLeft]

theorem holdPayload_eq (s : State) (start stop timer : Nat) : holdPayload s start stop timer =
    [1] ++ bytesOf 4 start ++ bytesOf 4 stop ++ bytesOf 4 (openSecondsLeft .hold timer s.ds) := by
  have one : bytesOf 1 1 = [1] := rfl
  simp [holdPayload, joinFields, one]

theorem Hold.bytesOf_code (h : Hold) :
    bytesOf 1 h.code = [match h with | .noHold => 0 | .held _ _ _ _ => 1 | .overridden _ _ => 2] := by
  cases h <;> rfl

section
variable {s : State} {duration : Nat} (asks : duration ≠ 0)
include asks

theorem answerHold_locked {start limit : Nat} (h : s.guard.hold = .overridden start limit) :
    answerHold duration s = refuse .holdLocked s := by
  simp only [answerHold, if_neg asks, h]

theorem answerHold_starts (h : s.guard.hold = .noHold) : answerHold duration s =
    accept ([1] ++ bytesOf 4 (s.ds / 10) ++ bytesOf 4 (s.ds / 10 + min (min duration 86400) s.guard.longestHold) ++
        bytesOf 4 (min (min duration 86400) s.guard.longestHold))
      (startHold (min duration 86400) s) := by
  simp only [answerHold, if_neg asks, h, holdPayload_eq, openSecondsLeft_started, State.now]

theorem answerHold_held {start limit stop timer : Nat} (h : s.guard.hold = .held start limit stop timer) {moved : Nat}
    (hm : moved = min (max stop (s.ds / 10 + min duration 86400)) limit) :
    (moved = stop → answerHold duration s = accept
      ([1] ++ bytesOf 4 start ++ bytesOf 4 stop ++ bytesOf 4 (openSecondsLeft .hold timer s.ds)) s) ∧
    (moved ≠ stop → answerHold duration s = accept
      ([1] ++ bytesOf 4 start ++ bytesOf 4 moved ++ bytesOf 4 (moved - s.ds / 10))
      (s.setHold (.held start limit moved (s.ds + 10 * (moved - s.ds / 10))))) := by
  subst hm
  refine ⟨fun stands => ?_, fun moves => ?_⟩
  · simp only [answerHold, if_neg asks, h, State.now, stands, if_true, holdPayload_eq]
  · simp only [answerHold, if_neg asks, h, State.now, if_neg moves, holdPayload_eq, openSecondsLeft_started]

end

/-- Settles O44: HOLD by the hold state, RELEASE, and the end expiry by whether the limit is reached. -/
theorem worksHoldRunsItsCourse : Obligations.WorksHoldRunsItsCourse := by
  refine ⟨fun s tag duration taken => ?_, fun s tag taken => ⟨s.setHold .noHold, rfl, fun none => ?_, fun some => ?_⟩,
    fun s start limit stop timer released held reached => ⟨fun before => ⟨(s.setHold .noHold).postAllocation .holdEnded, rfl, ?_⟩, fun atLimit => ?_⟩⟩
  · have answered := exec_hold_taken duration taken
    refine ⟨fun zero => refusedWith_of_answer answered (if_pos zero), fun asks start limit overridden =>
      refusedWith_of_answer answered (answerHold_locked asks overridden), fun asks none => ⟨_, _, rfl,
        exec_accepted answered (answerHold_starts asks none), startHold_frame s _ rfl, fun i => ?_⟩,
      fun start limit stop timer asks held => ?_⟩
    · exact (startHold_tank s _ i).trans (mapService_flagged _)
    · obtain ⟨stands, moves⟩ := answerHold_held asks held rfl
      obtain ⟨low, high⟩ := openSecondsLeft_bounds .hold timer s.ds
      by_cases same : min (max stop (s.ds / 10 + min duration 86400)) limit = stop
      · exact ⟨_, _, rfl, fun _ => ⟨low, high, exec_accepted answered (stands same)⟩, fun moved => absurd same moved⟩
      · exact ⟨_, _, rfl, fun stays => absurd stays same, fun _ => ⟨rfl, exec_accepted answered (moves same)⟩⟩
  · exact refusedWith_of_answer (exec_release_taken taken) (by simp only [answerRelease, none])
  · have accepts : answerRelease s = accept (bytesOf 1 s.guard.hold.code) (extraRun (s.setHold .noHold)) := by
      rw [answerRelease]
      cases hold : s.guard.hold with
      | noHold => exact absurd hold some
      | held | overridden => rfl
    rw [extraRun_of_alloc (s := s) (by simp)] at accepts
    exact (exec_accepted (exec_release_taken taken) accepts).trans
      (congrArg (fun code => Host.Outcome.next (State.replied tag .ok code _)) (Hold.bytesOf_code _))
  · have ends : holdEndEvent s = extraRun ((s.setHold .noHold).postAllocation .holdEnded) := by
      simp only [holdEndEvent, held, reached, if_true, if_neg before]
    rw [extraRun_of_alloc (s := s) (by simp)] at ends
    exact congrArg Host.Outcome.next ((whileReleased_released released).trans ends)
  · have overrides : holdEndEvent s =
        extraRun (((s.setHold (.overridden start limit)).flagSpills).postAllocation .holdOverridden) := by
      simp only [holdEndEvent, held, reached, if_true, atLimit]
    rw [extraRun_of_alloc (s := s) (by simp)] at overrides
    refine ⟨(s.setHold (.overridden start limit)).flagSpills, _, ?_, fun i =>
      (State.flagSpills_tank _ i).trans (mapService_flagged _), rfl,
      congrArg Host.Outcome.next ((whileReleased_released released).trans overrides)⟩
    apply State.ext_fields <;> simp

end Sys2Proof.Machine
end

section
/-! PROOFS. The Spill Accountant: candidates and openings (R160 to R166), open events and closes (R165 to R169), RESET_COUNTS (R175,
R176). -/

namespace Sys2Proof.Machine

/-! ### Candidates and openings (R160 to R166) -/

section
variable {d : TankDef} {rating : List Point} {hours level report : Nat} {restricted : Bool} {alert : AlertLevel} {b : SpillBook}

theorem spillReport_quiet_below (h : level ≤ d.crestLevel) :
    spillReport d rating hours restricted alert level report .quiet b = { book := b, spilling := .quiet, posts := [] } :=
  if_pos h

theorem spillReport_candidate_below (c : Candidate) (h : level ≤ d.crestLevel) :
    spillReport d rating hours restricted alert level report (.candidate c) b =
      { book := b, spilling := .quiet, posts := [] } :=
  if_pos h

/-- Above the crest a candidate is created or integrated, and then stands or is confirmed (R160 to R162). -/
theorem spillReport_above (h : d.crestLevel < level) {held : Spilling} {n : Candidate}
    (hn : held = .quiet ∧ n = { start := report, litres := 0, previousRate := interpolate rating (level - d.crestLevel)
                                previousReport := report, peakHead := level - d.crestLevel } ∨
      ∃ c, held = .candidate c ∧ n = { c with
        litres := min 4294967295 (c.litres + c.previousRate * min (report - c.previousReport) d.reportTimeout)
        previousRate := interpolate rating (level - d.crestLevel), previousReport := report
        peakHead := max c.peakHead (level - d.crestLevel) }) :
    spillReport d rating hours restricted alert level report held b = confirm d hours restricted alert report n b := by
  rcases hn with ⟨rfl, rfl⟩ | ⟨c, rfl, rfl⟩
  · exact if_neg h.not_ge
  · exact if_neg h.not_ge

/-- The opening of an event, merged or counted (R163, R164). -/
theorem openEvent_eq (n : Candidate) : openEvent hours restricted alert n b =
    { book := { b with
        counters := { b.counters with
          begun := min 65535 (b.counters.begun + 1)
          counted := if withinWindow n.start b.window then b.counters.counted else min 65535 (b.counters.counted + 1) }
        window := if withinWindow n.start b.window then b.window
          else some { start := n.start, stop := n.start + hours * 3600 } }
      spilling := .event
        { start := n.start, accountedFrom := n.start, litres := n.litres, peakHead := n.peakHead
          previousRate := n.previousRate, previousReport := n.previousReport
          mark := if withinWindow n.start b.window then .merged else .counted, restricted := restricted
          alertAtOpen := alert, peakAlert := alert, quietStart := none }
      posts := [.spillOpen] } := rfl

theorem withinWindow_iff (start : Nat) (w : Option Window) : withinWindow start w = true ↔ ∃ x, w = some x ∧ start < x.stop := by
  cases w <;> simp [withinWindow]

end

/-- Settles O45: below the crest nothing is held; above it the candidate decides, and its window the mark. -/
theorem spillBeginsAndOpens : Obligations.SpillBeginsAndOpens := by
  intro d rating hours restricted alert level report b
  refine ⟨fun c below => ⟨spillReport_quiet_below below, spillReport_candidate_below c below⟩, fun above held n hn => ?_⟩
  rw [spillReport_above above hn, confirm]
  refine ⟨fun early => if_neg early.not_ge, fun confirmed => ?_⟩
  rw [if_pos confirmed, openEvent_eq]
  refine ⟨_, _, _, rfl, fun w window within => ?_, fun outside => ?_⟩
  · have merged := (withinWindow_iff n.start b.window).2 ⟨w, window, within⟩
    simp only [merged, if_true, and_self]
  · have fresh : ¬withinWindow n.start b.window = true := fun merged => by
      obtain ⟨w, window, within⟩ := (withinWindow_iff _ _).1 merged
      exact absurd (outside w window) within.not_ge
    simp only [if_neg fresh, and_self]

/-! ### Open events and closes (R165 to R169) -/

/-- Settles O46: an event at a report is integrated and then judged by its quiet run; a close folds it into the book. -/
theorem spillEndsAndFolds : Obligations.SpillEndsAndFolds := by
  refine ⟨fun d rating hours restricted alert level report b e n hn => ?_, fun b mark stop e => ?_⟩
  · have judged : spillReport d rating hours restricted alert level report (.event e) b = quietRun d level report n b := by
      rw [hn]
      rfl
    have quietStart : n.quietStart = e.quietStart := by rw [hn]
    rw [judged]
    refine ⟨fun above => if_neg above.not_ge, fun below => ⟨fun first => ?_, fun q quiet => ⟨fun early => ?_, fun ends => ?_⟩⟩⟩
    · rw [← quietStart] at first
      rw [quietRun, endThreshold, if_pos below, first]
    · rw [← quietStart] at quiet
      rw [quietRun, endThreshold, if_pos below, quiet]
      exact if_neg early.not_ge
    · rw [← quietStart] at quiet
      rw [quietRun, endThreshold, if_pos below, quiet]
      exact if_pos ends
  · have extended : ∀ w : Window, ({ w with stop := max w.stop stop } : Window) =
        { start := w.start, stop := if w.stop < stop then stop else w.stop } := fun w => by
      rw [max_def_lt]
    simp only [SpillBook.close, extended]
    rfl

/-! ### RESET_COUNTS (R175, R176) -/

/-- Fields joined are their rows laid out (section 10.6). -/
theorem joinFields_eq_laidOut (widths numbers : List Nat) : joinFields widths numbers = laidOut (widths.zip numbers) := by
  simp [joinFields, laidOut, List.flatMap_def, List.zip, List.map_zipWith]

theorem Tank.openSpill_eq_none_iff (t : Tank) : t.openSpill = none ↔ ∀ v e, t.service = some v → v.spilling ≠ .event e := by
  rw [openSpill]
  split
  · next v hv =>
    have there : (∀ v' e, t.service = some v' → v'.spilling ≠ .event e) ↔ ∀ e, v.spilling ≠ .event e :=
      ⟨fun h e => h v e hv, fun h v' e hv' => Option.some.inj (hv ▸ hv') ▸ h e⟩
    rw [there]
    cases v.spilling <;> simp
  · next hv => simp [hv]

theorem Tank.openSpill_event {t : Tank} {v : Service} {e : SpillEvent} (hv : t.service = some v) (he : v.spilling = .event e) :
    t.openSpill = some e := by
  simp only [openSpill, hv, he]

theorem Tank.resetCounts_quiet {t : Tank} (now hours : Nat) (h : t.openSpill = none) : t.resetCounts now hours =
    { old := t.book.counters, split := false
      tank := { t with book := { t.book with
        counters := { begun := 0, counted := 0, seconds := 0, litres := 0, restricted := 0 }, window := none } } } := by
  rw [resetCounts, h]

theorem Tank.resetCounts_event {t : Tank} {v : Service} {e : SpillEvent} (now hours : Nat) (hv : t.service = some v)
    (he : v.spilling = .event e) : t.resetCounts now hours =
    { old := { t.book.counters with
        seconds := min 4294967295 (t.book.counters.seconds + (now - e.accountedFrom))
        litres := min (2 ^ 48 - 1) (t.book.counters.litres + e.litres) }
      split := true
      tank := { t with
        service := some { v with spilling := .event { e with accountedFrom := now, litres := 0, mark := .counted } }
        book := { t.book with
          counters := { begun := 1, counted := 1, seconds := 0, litres := 0, restricted := 0 }
          window := some { start := e.start, stop := max (e.start + hours * 3600) now } } } } := by
  simp only [resetCounts, t.openSpill_event hv he, mapService, hv, Option.map_some]
  rfl

theorem Tank.resetCounts_split (t : Tank) (now hours : Nat) : (t.resetCounts now hours).split = t.openSpill.isSome := by
  rw [resetCounts]
  split <;> simp_all

section
variable {s : State} {i : Fin 32} {t : Tank}

theorem answerResetCounts_undefined (h : s.tanks[i] = none) : answerResetCounts i s = refuse .notDefined s := by
  simp only [answerResetCounts, indexIn_val, h]

theorem answerResetCounts_defined (h : s.tanks[i] = some t) : answerResetCounts i s =
    accept ((t.resetCounts (s.ds / 10) s.windowHours).old.bytes ++ bytesOf 1 (flagCode (t.resetCounts (s.ds / 10) s.windowHours).split))
      (s.setTank i (some (t.resetCounts (s.ds / 10) s.windowHours).tank)) := by
  simp only [answerResetCounts, indexIn_val, h, State.now]

end

/-- What RESET_COUNTS would leave of each defined tank. -/
def State.countsResets (s : State) (i : Fin 32) : Option CountsReset :=
  (s.tanks[i]).map (Tank.resetCounts (s.ds / 10) s.windowHours)

theorem sumOldCounters_eq (s : State) (field : SpillCounters → Nat) :
    sumOldCounters field s = sumTanks fun i => ((s.countsResets i).map fun r => field r.old).getD 0 := by
  refine congrArg sumTanks (funext fun i => ?_)
  rw [State.countsResets]
  cases s.tanks[i] <;> rfl

theorem State.countsResets_number (s : State) : (sumTanks fun i => if s.tankIs (fun _ => true) i then 1 else 0) =
    sumTanks fun i => if (s.countsResets i).isSome then 1 else 0 := by
  refine congrArg sumTanks (funext fun i => ?_)
  rw [State.countsResets, State.tankIs]
  cases s.tanks[i] <;> rfl

theorem State.countsResets_splits (s : State) : (sumTanks fun i => if s.tankIs (fun t => t.openSpill.isSome) i then 1 else 0) =
    sumTanks fun i => if ((s.countsResets i).map CountsReset.split).getD false then 1 else 0 := by
  refine congrArg sumTanks (funext fun i => ?_)
  rw [State.countsResets, State.tankIs]
  cases s.tanks[i] with
  | none => rfl
  | some t => simp [Tank.resetCounts_split]

theorem State.countsResets_tanks (s : State) : (s.mapTanks fun _ t => (t.resetCounts s.now s.windowHours).tank) =
    { s with tanks := Vector.ofFn fun i => (s.countsResets i).map CountsReset.tank } := by
  simp only [State.mapTanks, State.countsResets, State.now, Option.map_map, Function.comp_def]

/-- The reply and the tanks that RESET_COUNTS with ALL leaves (R176). -/
theorem answerResetCountsAll_eq (s : State) : answerResetCountsAll s = accept
    (bytesOf 1 (sumTanks fun i => if (s.countsResets i).isSome then 1 else 0) ++
      bytesOf 1 (sumTanks fun i => if ((s.countsResets i).map CountsReset.split).getD false then 1 else 0) ++
      bytesOf 2 (min 65535 (sumTanks fun i => ((s.countsResets i).map fun r => r.old.begun).getD 0)) ++
      bytesOf 2 (min 65535 (sumTanks fun i => ((s.countsResets i).map fun r => r.old.counted).getD 0)) ++
      bytesOf 4 (min 4294967295 (sumTanks fun i => ((s.countsResets i).map fun r => r.old.seconds).getD 0)) ++
      bytesOf 6 (min (2 ^ 48 - 1) (sumTanks fun i => ((s.countsResets i).map fun r => r.old.litres).getD 0)) ++
      bytesOf 2 (min 65535 (sumTanks fun i => ((s.countsResets i).map fun r => r.old.restricted).getD 0)))
    { s with tanks := Vector.ofFn fun i => (s.countsResets i).map CountsReset.tank } := by
  simp only [answerResetCountsAll, sumOldCounters_eq, State.countsResets_number, State.countsResets_splits,
    State.countsResets_tanks, SpillCounters.bytes_eq, List.append_assoc]
  rfl

/-- Settles O47: one tank by whether an event is open, ALL by the record that RESET_COUNTS leaves of each. -/
theorem countsResetOfOneAndAll : Obligations.CountsResetOfOneAndAll := by
  refine ⟨fun c => joinFields_eq_laidOut _ _, fun s tag tank taken => ?_, fun s tag taken => ⟨s.countsResets, fun i => rfl, ?_, ?_⟩⟩
  · have answered := exec_resetCounts_taken tank taken
    refine ⟨fun out => refusedWith_of_answer answered (by simp [answerResetCounts, indexIn_out out]), ?_⟩
    rintro i rfl
    refine ⟨fun undefined => refusedWith_of_answer answered (answerResetCounts_undefined undefined), fun t defined => ?_⟩
    have accepted := answerResetCounts_defined defined
    refine ⟨fun quiet => ?_, fun v e present spilling => ?_⟩
    · rw [Tank.resetCounts_quiet _ _ (t.openSpill_eq_none_iff.2 quiet)] at accepted
      exact exec_accepted answered accepted
    · rw [Tank.resetCounts_event _ _ present spilling] at accepted
      exact exec_accepted answered accepted
  · exact exec_accepted (exec_resetCountsAll_taken taken) (answerResetCountsAll_eq s)
  · intro i r t reset defined
    have same : t.resetCounts (s.ds / 10) s.windowHours = r := by
      rw [State.countsResets, defined] at reset
      exact Option.some.inj reset
    have inHand : ({ s with port := .busy (.request tag (.resetCounts i)) } : State).takes tag (.resetCounts i) := ⟨taken.1, rfl⟩
    refine (exec_accepted (exec_resetCounts_taken _ inHand) (answerResetCounts_defined (t := t) defined)).trans ?_
    simp only [same]
    rfl

end Sys2Proof.Machine
end

section
/-! PROOFS. The reads: fields and rows laid out, READ_TANK, READ_SPILL (R19, R43, R59, R177), READ_GAUGE, READ_CATCHMENT (R75, R97) and
READ_ALLOCATION (R123, R156). -/

namespace Sys2Proof.Machine

/-! ### Rows of fields -/

/-- The most significant byte of a number stands first (R181). -/
theorem bytesOf_succ (width n : Nat) : bytesOf (width + 1) n = BitVec.ofNat 8 (n / 256 ^ width) :: bytesOf width n := by
  induction width generalizing n with
  | zero => simp [bytesOf]
  | succ width ih =>
    have front : bytesOf (width + 1 + 1) n = bytesOf (width + 1) (n / 256) ++ [BitVec.ofNat 8 n] := rfl
    rw [front, ih, Nat.div_div_eq_div_mul, ← Nat.pow_succ']
    rfl

theorem laidOut_append (a b : List (Nat × Nat)) : laidOut (a ++ b) = laidOut a ++ laidOut b :=
  List.flatMap_append

theorem laidOut_cons (width n : Nat) (fields : List (Nat × Nat)) :
    laidOut ((width, n) :: fields) = bytesOf width n ++ laidOut fields := rfl

theorem laidOut_length (fields : List (Nat × Nat)) : (laidOut fields).length = (fields.map Prod.fst).sum := by
  simp [laidOut, List.length_flatMap]

/-- A remaining-seconds field whose rounding is up (R123, R136, R156). -/
theorem timerField_roundedUp (width ds : Nat) (t : Timer) :
    timerField width t (fun e => secondsLeft e ds) = bytesOf width (roundedUp width ds t) := by
  cases t <;> rfl

/-- A remaining-seconds field whose rounding is free (log 9). -/
theorem timerField_enclosed (width ds : Nat) (field : RemainingField) (t : Timer) : ∃ left,
    timerField width t (fun e => openSecondsLeft field e ds) = bytesOf width left ∧ (t = none → left = 256 ^ width - 1) ∧
      ∀ e, t = some e → EnclosedSeconds e ds left := by
  cases t with
  | none => exact ⟨256 ^ width - 1, rfl, fun _ => rfl, by simp⟩
  | some e =>
    refine ⟨openSecondsLeft field e ds, rfl, by simp, fun e' he => ?_⟩
    obtain rfl := Option.some.inj he
    exact openSecondsLeft_bounds field e ds

/-! ### READ_TANK -/

/-- The 19 bytes of the level state (R26, R43). -/
theorem LevelState.bytes_eq (l : LevelState) : l.bytes = laidOut
    [(2, l.lastLevel.getD 0), (4, l.lastReport.getD 0),
     (1, (if l.lastLevel.isSome then 1 else 0) + (if l.netRate.isSome then 2 else 0) + (if l.clamped then 4 else 0) +
       (if l.aboveTable then 8 else 0) + (if l.stale then 16 else 0) + (if l.imminent then 32 else 0)),
     (4, l.volume.getD 0), (4, (l.netRate.getD 0 % 4294967296).toNat),
     (4, match l.timeToSpill with | .seconds n => n | .never => 4294967295 | .absent => 4294967295)] := by
  have toSpill : l.timeToSpill.bytes = bytesOf 4 (match l.timeToSpill with
      | .seconds n => n
      | .never => 4294967295
      | .absent => 4294967295) := by
    cases l.timeToSpill <;> rfl
  rw [bytes, toSpill, joinFields_eq_laidOut]
  simp [laidOut, signedBytesOf, bitsOf, Nat.mul_add, Nat.add_assoc]

/-- The fields of READ_TANK after the stale timer, with their widths. -/
def Supervisor.fields (d : TankDef) (v : Supervisor) : List (Nat × Nat) :=
  [(1, v.stallCounter), (1, v.goodCounter), (2, v.snapshot.getD 0),
   (1, (if v.snapshot.isSome then 1 else 0) + (if v.reportMark then 2 else 0) + (if v.stall then 4 else 0) +
     (if v.levelLost then 8 else 0)),
   (2, if d.rMin = 0 then (d.rMax + 7) / 8 else d.rMin)]

theorem Supervisor.bytes_eq (d : TankDef) (v : Supervisor) : v.bytes d = laidOut (v.fields d) := by
  have probe : probeRate d = if d.rMin = 0 then (d.rMax + 7) / 8 else d.rMin := by
    rw [probeRate, divUp]
    split_ifs <;> omega
  rw [bytes, joinFields_eq_laidOut, probe]
  simp [laidOut, fields, bitsOf, Nat.mul_add, Nat.add_assoc]

/-- The fields of READ_TANK before the level state, with their widths. -/
def Tank.headFields (s : State) (i : Fin 32) (t : Tank) : List (Nat × Nat) :=
  [(1, i), (1, if t.service.isSome then 2 else 1), (1, t.defn.catchment), (1, t.defn.zone),
   (1, match t.defn.combine with | .or => 0 | .and => 1), (1, t.defn.basePriority), (2, t.defn.dryLevel),
   (2, t.defn.crestLevel), (2, t.defn.endHysteresis), (2, t.defn.rMax), (2, t.defn.rMin), (2, t.defn.fallMin),
   (1, t.defn.stallCount), (1, match t.defn.faultReaction with | .latch => 0 | .retry => 1),
   (2, t.defn.reportTimeout), (1, t.defn.lostLimit), (2, t.defn.quietTime), (2, t.defn.confirmTime),
   (1, (t.stage.map fun st => st.points.length).getD 0), (1, (t.rating.map List.length).getD 0),
   (4, (t.stage.map StageTable.vDry).getD 0), (4, (t.stage.map StageTable.vCrest).getD 0),
   (1, match t.inForce.mode with | .auto => 0 | .manual => 1), (2, t.inForce.value),
   (1, match t.pendingMode.mode with | .auto => 0 | .manual => 1), (2, t.pendingMode.value),
   (1, (if t.softInhibit then 1 else 0) + (if s.pins.zinh[t.defn.zone] then 2 else 0) + (if t.inhibited then 4 else 0)),
   (1, match t.service with
     | none => 255
     | some w => match w.op with
       | .awaitLevel => 0 | .dry => 1 | .filling => 2 | .storing => 3 | .draining => 4 | .faulted => 5)]

/-- The bytes of a defined tank before its level state. -/
theorem Tank.head_eq (s : State) (i : Fin 32) (t : Tank) :
    joinFields [1, 1] [i, (lifecycleOf (some t)).code] ++ t.defn.bytes ++
      joinFields [1, 1, 4, 4, 1, 2, 1, 2, 1, 1]
        [t.stagePoints.length, (t.rating.getD []).length, (t.stage.map StageTable.vDry).getD 0,
         (t.stage.map StageTable.vCrest).getD 0, t.inForce.mode.code, t.inForce.value, t.pendingMode.mode.code,
         t.pendingMode.value, bitsOf [t.softInhibit, s.pins.zinh[t.defn.zone], t.inhibited], t.opCode] = laidOut
      (t.headFields s i) := by
  have stage : t.stagePoints.length = (t.stage.map fun st => st.points.length).getD 0 := by
    rw [stagePoints]
    cases t.stage <;> rfl
  have rating : (t.rating.getD []).length = (t.rating.map List.length).getD 0 := by
    cases t.rating <;> rfl
  have lifecycle : (lifecycleOf (some t)).code = if t.service.isSome then 2 else 1 := by
    rw [lifecycleOf]
    cases t.service <;> rfl
  have op : t.opCode = match t.service with
      | none => 255
      | some w => match w.op with
        | .awaitLevel => 0 | .dry => 1 | .filling => 2 | .storing => 3 | .draining => 4 | .faulted => 5 := by
    rw [opCode]
    cases t.service with
    | none => rfl
    | some w => cases w.op <;> rfl
  have flags : bitsOf [t.softInhibit, s.pins.zinh[t.defn.zone], t.inhibited] =
      (if t.softInhibit then 1 else 0) + (if s.pins.zinh[t.defn.zone] then 2 else 0) + (if t.inhibited then 4 else 0) := by
    simp [bitsOf, Nat.mul_add, Nat.add_assoc]
  rw [TankDef.bytes, stage, rating, lifecycle, op, flags, joinFields_eq_laidOut, joinFields_eq_laidOut, joinFields_eq_laidOut,
    ← laidOut_append, ← laidOut_append]
  rfl

/-- Two rows with a field of one byte and one of two between them. -/
theorem laidOut_two_fields (a b : List Byte) (n m : Nat) (fields : List (Nat × Nat)) :
    a ++ b ++ bytesOf 1 n ++ bytesOf 2 m ++ laidOut fields = a ++ b ++ laidOut ((1, n) :: (2, m) :: fields) := by
  simp only [laidOut_cons, List.append_assoc]

section
variable {s : State} {i : Fin 32} {t : Tank}

theorem Tank.levelState_of_service {v : Service} (h : t.service = some v) : t.levelState = v.level := by
  simp only [levelState, h]

theorem Tank.supervisorState_of_service {v : Service} (h : t.service = some v) : t.supervisorState = v.supervisor := by
  simp only [supervisorState, h]

theorem Tank.levelState_offline (h : t.service = none) : t.levelState = LevelState.fresh := by
  simp only [levelState, h]

theorem Tank.supervisorState_offline (h : t.service = none) : t.supervisorState = Supervisor.fresh := by
  simp only [supervisorState, h]

theorem answerReadTank_undefined (h : s.tanks[i] = none) : answerReadTank i s = accept (List.replicate 74 0) s := by
  simp only [answerReadTank, indexIn_val, h]

theorem answerReadTank_defined (h : s.tanks[i] = some t) : answerReadTank i s = accept (t.payload s i) s := by
  simp only [answerReadTank, indexIn_val, h]

theorem answerReadSpill_undefined (h : s.tanks[i] = none) : answerReadSpill i s = accept (List.replicate 87 0) s := by
  simp only [answerReadSpill, indexIn_val, h]

theorem answerReadSpill_defined (h : s.tanks[i] = some t) : answerReadSpill i s = accept (t.spillPayload i s.now) s := by
  simp only [answerReadSpill, indexIn_val, h]

end

theorem LevelState.bytes_length (l : LevelState) : l.bytes.length = 19 := by
  rw [bytes_eq, laidOut_length]
  rfl

/-- READ_TANK of a defined tank (R19, R43, R59). -/
theorem Tank.payload_eq {s : State} {t : Tank} {left : Nat} (i : Fin 32)
    (shown : timerField 2 t.levelState.staleTimer (fun e => openSecondsLeft .stale e s.ds) = bytesOf 2 left) :
    t.payload s i = laidOut (t.headFields s i) ++ t.levelState.bytes ++
      laidOut ((1, t.levelState.expiries) :: (2, left) :: t.supervisorState.fields t.defn) := by
  rw [payload, head_eq, shown, Supervisor.bytes_eq, laidOut_two_fields]

theorem Tank.payload_length {s : State} {t : Tank} {left : Nat} (i : Fin 32)
    (shown : timerField 2 t.levelState.staleTimer (fun e => openSecondsLeft .stale e s.ds) = bytesOf 2 left) :
    (t.payload s i).length = 74 := by
  have head : ((t.headFields s i).map Prod.fst).sum = 45 := by simp [headFields]
  have tail : (((1, t.levelState.expiries) :: (2, left) :: t.supervisorState.fields t.defn).map Prod.fst).sum = 10 := by simp [Supervisor.fields]
  rw [payload_eq i shown, List.length_append, List.length_append, laidOut_length, laidOut_length, LevelState.bytes_length,
    head, tail]

/-! ### READ_SPILL -/

/-- The presence byte of READ_SPILL (R177). -/
def Tank.spillPresence (now : Nat) (t : Tank) : Nat :=
  bitsOf [t.spilling.hasCandidate, t.spilling.hasEvent, t.spilling.hasQuietStart, t.book.window.isSome,
    withinWindow now t.book.window, t.book.lastClose.isSome]

theorem Tank.spillPresence_eq (now : Nat) (t : Tank) : t.spillPresence now =
    (match t.spilling with
      | .quiet => 0
      | .candidate _ => 1
      | .event e => if e.quietStart.isSome then 6 else 2) +
    (match t.book.window with
      | some w => if now < w.stop then 24 else 8
      | none => 0) + (if t.book.lastClose.isSome then 32 else 0) := by
  have held : bitsOf [t.spilling.hasCandidate, t.spilling.hasEvent, t.spilling.hasQuietStart] = match t.spilling with
      | .quiet => 0
      | .candidate _ => 1
      | .event e => if e.quietStart.isSome then 6 else 2 := by
    rcases t.spilling with _ | c | e
    · rfl
    · rfl
    · cases h : e.quietStart.isSome <;> simp [Spilling.hasCandidate, Spilling.hasEvent, Spilling.hasQuietStart, bitsOf, h]
  have window : bitsOf [t.book.window.isSome, withinWindow now t.book.window] * 8 = match t.book.window with
      | some w => if now < w.stop then 24 else 8
      | none => 0 := by
    cases t.book.window with
    | none => rfl
    | some w => by_cases h : now < w.stop <;> simp [withinWindow, bitsOf, h]
  rw [← held, ← window, spillPresence]
  simp only [bitsOf, Nat.mul_add, Nat.add_mul, mul_ite, ite_mul]
  ring_nf

theorem Spilling.candidateBytes_eq (h : Spilling) : h.candidateBytes = match h with
    | .candidate c => laidOut [(4, c.start), (4, c.litres), (2, c.previousRate), (4, c.previousReport), (2, c.peakHead)]
    | _ => List.replicate 16 0 := by
  cases h with
  | candidate c => exact joinFields_eq_laidOut _ _
  | event _ => rfl
  | quiet => rfl

theorem Spilling.eventBytes_eq (h : Spilling) : h.eventBytes = match h with
    | .event e => laidOut
      [(4, e.start), (4, e.accountedFrom), (4, e.litres), (2, e.peakHead), (2, e.previousRate), (4, e.previousReport),
       (1, (if e.mark = .merged then 1 else 0) + (if e.restricted then 2 else 0) + 4 * e.alertAtOpen.code +
         16 * e.peakAlert.code), (4, e.quietStart.getD 0)]
    | _ => List.replicate 25 0 := by
  cases h with
  | candidate _ => rfl
  | event e =>
    have marks : bitsOf [e.mark == .merged, e.restricted] = (if e.mark = .merged then 1 else 0) + (if e.restricted then 2 else 0) := by
      simp [bitsOf]
    rw [eventBytes, marks, joinFields_eq_laidOut]
    rfl
  | quiet => rfl

theorem windowBytes_eq (w : Option Window) : windowBytes w = match w with
    | some w => laidOut [(4, w.start), (4, w.stop)]
    | none => List.replicate 8 0 := by
  cases w with
  | none => rfl
  | some w => exact joinFields_eq_laidOut _ _

theorem lastCloseBytes_eq (c : Option LastClose) : lastCloseBytes c = match c with
    | some c => laidOut
      [(1, (match c.mark with | .ended => 1 | .lost => 2 | .cut => 3) + (if c.restricted then 4 else 0)), (4, c.start),
       (4, c.stop), (4, c.seconds), (4, c.litres)]
    | none => List.replicate 17 0 := by
  cases c with
  | none => rfl
  | some c =>
    have mark : c.mark.code + 4 * flagCode c.restricted =
        (match c.mark with | .ended => 1 | .lost => 2 | .cut => 3) + (if c.restricted then 4 else 0) := by
      cases c.mark <;> simp [CloseMark.code, flagCode]
    rw [lastCloseBytes, mark, joinFields_eq_laidOut]
    rfl

theorem Spilling.candidateBytes_length (h : Spilling) : h.candidateBytes.length = 16 := by
  rw [candidateBytes_eq]
  cases h <;> simp [laidOut_length]

theorem Spilling.eventBytes_length (h : Spilling) : h.eventBytes.length = 25 := by
  rw [eventBytes_eq]
  cases h <;> simp [laidOut_length]

theorem windowBytes_length (w : Option Window) : (windowBytes w).length = 8 := by
  rw [windowBytes_eq]
  cases w <;> simp [laidOut_length]

theorem lastCloseBytes_length (c : Option LastClose) : (lastCloseBytes c).length = 17 := by
  rw [lastCloseBytes_eq]
  cases c <;> simp [laidOut_length]

/-- READ_SPILL of a defined tank (R177). -/
theorem Tank.spillPayload_eq (i : Fin 32) (now : Nat) (t : Tank) : t.spillPayload i now = laidOut
      [(1, i), (1, 1), (1, t.spillPresence now), (2, t.book.counters.begun), (2, t.book.counters.counted),
       (4, t.book.counters.seconds), (6, t.book.counters.litres), (2, t.book.counters.restricted)] ++
      t.spilling.candidateBytes ++ t.spilling.eventBytes ++ windowBytes t.book.window ++ lastCloseBytes t.book.lastClose ++
      bytesOf 2 (t.defn.crestLevel - t.defn.endHysteresis) := by
  rw [spillPayload, endThreshold, SpillCounters.bytes, joinFields_eq_laidOut, joinFields_eq_laidOut, ← laidOut_append]
  rfl

theorem Tank.spillPayload_length (i : Fin 32) (now : Nat) (t : Tank) : (t.spillPayload i now).length = 87 := by
  simp [spillPayload_eq, laidOut_length, Spilling.candidateBytes_length, Spilling.eventBytes_length, windowBytes_length,
    lastCloseBytes_length]

theorem Tank.spilling_of_service {t : Tank} {v : Service} (h : t.service = some v) : t.spilling = v.spilling := by
  simp only [spilling, h]

theorem Tank.spilling_offline {t : Tank} (h : t.service = none) : t.spilling = .quiet := by
  simp only [spilling, h]

/-- Settles O48: the layouts of the two reads, with the level state that a report shows. -/
theorem tankReadsLaidOut : Obligations.TankReadsLaidOut := by
  refine ⟨fun width n => ⟨rfl, bytesOf_succ width n⟩, ⟨rfl, rfl, rfl, rfl⟩, LevelState.bytes_eq, fun s tag tank taken => ?_,
    fun s tag tank taken => ?_⟩
  · have answered := exec_readTank_taken tank taken
    refine ⟨fun out => refusedWith_of_answer answered (by simp [answerReadTank, indexIn_out out]), ?_⟩
    rintro i rfl
    cases defined : s.tanks[i] with
    | none =>
      refine ⟨_, by rw [List.length_replicate], exec_accepted answered (answerReadTank_undefined defined), fun _ => rfl, ?_⟩
      simp
    | some t =>
      obtain ⟨left, shown, stopped, running⟩ := timerField_enclosed 2 s.ds .stale t.levelState.staleTimer
      have form := Tank.payload_eq i shown
      refine ⟨t.payload s i, ?_, exec_accepted answered (answerReadTank_defined defined), by simp, fun t' ht => ?_⟩
      · exact Tank.payload_length i shown
      · obtain rfl := Option.some.inj ht
        refine ⟨t.levelState, t.supervisorState, left, fun w hw => ?_, fun absent => ?_, stopped, running, form⟩
        · exact ⟨t.levelState_of_service hw, t.supervisorState_of_service hw⟩
        · exact ⟨t.levelState_offline absent, t.supervisorState_offline absent⟩
  · have answered := exec_readSpill_taken tank taken
    refine ⟨fun out => refusedWith_of_answer answered (by simp [answerReadSpill, indexIn_out out]), ?_⟩
    rintro i rfl
    cases defined : s.tanks[i] with
    | none =>
      refine ⟨_, by rw [List.length_replicate], exec_accepted answered (answerReadSpill_undefined defined), fun _ => rfl, ?_⟩
      simp
    | some t =>
      refine ⟨t.spillPayload i s.now, t.spillPayload_length i s.now, exec_accepted answered (answerReadSpill_defined defined),
        by simp, fun t' ht => ?_⟩
      obtain rfl := Option.some.inj ht
      exact ⟨t.spilling, t.spilling.candidateBytes, t.spilling.eventBytes, windowBytes t.book.window,
        lastCloseBytes t.book.lastClose, t.spillPresence s.now, fun w hw => t.spilling_of_service hw, t.spilling_offline,
        t.spillPresence_eq s.now, t.spilling.candidateBytes_eq, t.spilling.eventBytes_eq, windowBytes_eq _, lastCloseBytes_eq _,
        t.spillPayload_eq i s.now⟩

/-! ### READ_GAUGE (R75) -/

/-- The fields of READ_GAUGE, with their widths. -/
def Gauge.fields (ds : Nat) (g : Gauge) : List (Nat × Nat) :=
  [(1, 1), (1, g.depthPerTip), (1, g.debounce), (4, g.dryGap), (1, match g.storm with | .dry => 0 | .wet => 1),
   (4, g.stormDepth), (2, g.tips), (1, (if g.lastTip.isSome then 1 else 0) + (if g.interval.isSome then 2 else 0)),
   (4, g.lastTip.getD 0), (2, g.interval.getD 0), (1, g.tipDepth.getD 0), (2, g.intensity ds),
   (2, match g.lastTip with | some last => min 65535 (ds - last) | none => 0), (4, roundedUp 4 ds g.dryTimer)]

theorem Gauge.payload_eq (ds : Nat) (g : Gauge) : g.payload ds = laidOut (g.fields ds) := by
  have storm : g.storm.code = match g.storm with | .dry => 0 | .wet => 1 := by
    cases g.storm <;> rfl
  have flags : bitsOf [g.lastTip.isSome, g.interval.isSome] =
      (if g.lastTip.isSome then 1 else 0) + (if g.interval.isSome then 2 else 0) := by
    simp [bitsOf]
  have elapsed : g.elapsed ds = match g.lastTip with | some last => min 65535 (ds - last) | none => 0 := by
    rw [Gauge.elapsed]
    cases g.lastTip <;> rfl
  rw [payload, timerField_roundedUp, storm, flags, elapsed, joinFields_eq_laidOut]
  simp [laidOut, fields]

theorem Gauge.payload_length (ds : Nat) (g : Gauge) : (g.payload ds).length = 30 := by
  rw [payload_eq, laidOut_length]
  simp [fields]

theorem answerReadGauge_undefined {s : State} {k : Fin 12} (h : s.gauges[k] = none) :
    answerReadGauge k s = accept (List.replicate 30 0) s := by
  simp only [answerReadGauge, indexIn_val, h]

theorem answerReadGauge_defined {s : State} {k : Fin 12} {g : Gauge} (h : s.gauges[k] = some g) :
    answerReadGauge k s = accept (g.payload s.ds) s := by
  simp only [answerReadGauge, indexIn_val, h]

theorem readGauge_laidOut {s : State} {tag : Byte} {gauge : Nat} (taken : s.takes tag (.readGauge gauge)) :
    (11 < gauge → RefusedWith (.readGauge gauge) s tag .badIndex) ∧
    ∀ k : Fin 12, k.val = gauge → ∃ payload : List Byte, payload.length = 30 ∧
      exec (.readGauge gauge) s = .next (s.replied tag .ok payload) ∧
      (s.gauges[k] = none → payload = List.replicate 30 0) ∧
      ∀ g, s.gauges[k] = some g → payload = laidOut (g.fields s.ds) := by
  have answered := exec_readGauge_taken gauge taken
  refine ⟨fun out => refusedWith_of_answer answered (by simp [answerReadGauge, indexIn_out out]), ?_⟩
  rintro k rfl
  cases defined : s.gauges[k] with
  | none =>
    refine ⟨_, by rw [List.length_replicate], exec_accepted answered (answerReadGauge_undefined defined), fun _ => rfl, ?_⟩
    simp
  | some g =>
    refine ⟨g.payload s.ds, g.payload_length s.ds, exec_accepted answered (answerReadGauge_defined defined), by simp,
      fun g' hg => ?_⟩
    obtain rfl := Option.some.inj hg
    exact g.payload_eq s.ds

/-! ### READ_CATCHMENT (R97) -/

/-- Index bytes in a list of a fixed length, 0 beyond the entries (section 10.6). -/
theorem indexBytes_padded {n m : Nat} (list : List (Fin n)) (h : list.length ≤ m) :
    list.flatMap (fun k : Fin n => bytesOf 1 k) ++ List.replicate (m - list.length) 0 =
      (list.map (fun k : Fin n => BitVec.ofNat 8 k.val) ++ List.replicate m 0).take m := by
  have bytes : list.flatMap (fun k : Fin n => bytesOf 1 k) = list.map fun k : Fin n => BitVec.ofNat 8 k.val :=
    List.map_eq_flatMap.symm
  rw [bytes, List.take_append, List.length_map, List.take_of_length_le (by simpa using h), List.take_replicate,
    Nat.min_eq_left (Nat.sub_le _ _)]

/-- The fields of READ_CATCHMENT after the gauge indices, with their widths. -/
def Catchment.fields (s : State) (k : Fin 8) (c : Catchment) (level expiry left : Nat) : List (Nat × Nat) :=
  [(2, c.defn.iWatch), (2, c.defn.iWarning), (2, c.defn.iSevere), (4, c.defn.dWatch), (4, c.defn.dWarning),
   (4, c.defn.dSevere), (2, c.defn.hysteresis), (2, c.defn.holdDown), (2, c.lastIntensity), (4, c.lastDepth),
   (1, c.gaugeLevel.code),
   (1, (if c.holdStart.isSome then 1 else 0) + (if c.acknowledged then 2 else 0) + (if c.raised.isSome then 4 else 0)),
   (4, c.holdStart.getD 0),
   (2, match c.holdStart with | some start => start + c.defn.holdDown - s.ds / 10 | none => 0),
   (1, level), (4, expiry), (4, left), (1, c.effective.code), (4, c.raised.getD 0), (2, c.peak),
   (1, sumTanks fun i => match s.tanks[i] with
     | some t => if t.defn.catchment = k then 1 else 0
     | none => 0)]

theorem State.tanksNaming_eq (s : State) (k : Fin 8) : s.tanksNaming k = sumTanks fun i => match s.tanks[i] with
    | some t => if t.defn.catchment = k then 1 else 0
    | none => 0 := by
  refine congrArg sumTanks (funext fun i => ?_)
  rw [State.tankIs]
  cases s.tanks[i] <;> simp

theorem Catchment.payload_eq {s : State} {c : Catchment} {left : Nat} (k : Fin 8) (few : c.defn.gauges.length ≤ 4)
    (shown : timerField 4 (c.floor.map Floor.timer) (fun e => openSecondsLeft .readCatchment e s.ds) = bytesOf 4 left) :
    c.payload s k = laidOut [(1, 1), (1, c.defn.gauges.length)] ++
      (c.defn.gauges.map (fun g : Fin 12 => BitVec.ofNat 8 g.val) ++ List.replicate 4 0).take 4 ++
      laidOut (c.fields s k ((c.floor.map fun f => f.level.code).getD 0) ((c.floor.map Floor.expiry).getD 0) left) := by
  have flags : bitsOf [c.holdStart.isSome, c.acknowledged, c.raised.isSome] =
      (if c.holdStart.isSome then 1 else 0) + (if c.acknowledged then 2 else 0) + (if c.raised.isSome then 4 else 0) := by
    simp [bitsOf, Nat.mul_add, Nat.add_assoc]
  have hold : c.holdLeft s.now = match c.holdStart with | some start => start + c.defn.holdDown - s.ds / 10 | none => 0 := by
    cases h : c.holdStart <;> simp [holdLeft, h, State.now]
  rw [payload, gaugeBytes, indexBytes_padded _ few, floorBytes, shown, flags, hold, State.tanksNaming_eq]
  simp [joinFields_eq_laidOut, laidOut, fields]

theorem Catchment.fields_width (s : State) (k : Fin 8) (c : Catchment) (level expiry left : Nat) :
    ((c.fields s k level expiry left).map Prod.fst).sum = 53 := by
  simp [fields]

theorem answerReadCatchment_undefined {s : State} {k : Fin 8} (h : s.catchments[k] = none) :
    answerReadCatchment k s = accept (List.replicate 59 0) s := by
  simp only [answerReadCatchment, indexIn_val, h]

theorem answerReadCatchment_defined {s : State} {k : Fin 8} {c : Catchment} (h : s.catchments[k] = some c) :
    answerReadCatchment k s = accept (c.payload s k) s := by
  simp only [answerReadCatchment, indexIn_val, h]

theorem readCatchment_laidOut {s : State} {tag : Byte} {catchment : Nat} (taken : s.takes tag (.readCatchment catchment)) :
    (7 < catchment → RefusedWith (.readCatchment catchment) s tag .badIndex) ∧
    ∀ k : Fin 8, k.val = catchment → (∀ c ∈ s.catchments[k], c.defn.gauges.length ≤ 4) →
      ∃ payload : List Byte, payload.length = 59 ∧ exec (.readCatchment catchment) s = .next (s.replied tag .ok payload) ∧
        (s.catchments[k] = none → payload = List.replicate 59 0) ∧
        ∀ c, s.catchments[k] = some c → ∃ level expiry left : Nat,
          (c.floor = none → level = 0 ∧ expiry = 0 ∧ left = 4294967295) ∧
          (∀ f, c.floor = some f → level = f.level.code ∧ expiry = f.expiry ∧ EnclosedSeconds f.timer s.ds left) ∧
          payload = laidOut [(1, 1), (1, c.defn.gauges.length)] ++
            (c.defn.gauges.map (fun g : Fin 12 => BitVec.ofNat 8 g.val) ++ List.replicate 4 0).take 4 ++
            laidOut (c.fields s k level expiry left) := by
  have answered := exec_readCatchment_taken catchment taken
  refine ⟨fun out => refusedWith_of_answer answered (by simp [answerReadCatchment, indexIn_out out]), ?_⟩
  rintro k rfl few
  cases defined : s.catchments[k] with
  | none =>
    refine ⟨_, by rw [List.length_replicate], exec_accepted answered (answerReadCatchment_undefined defined), fun _ => rfl, ?_⟩
    simp
  | some c =>
    obtain ⟨left, shown, stopped, running⟩ := timerField_enclosed 4 s.ds .readCatchment (c.floor.map Floor.timer)
    have form := c.payload_eq k (few c defined) shown
    refine ⟨c.payload s k, ?_, exec_accepted answered (answerReadCatchment_defined defined), by simp, fun c' hc => ?_⟩
    · simp only [form, List.length_append, laidOut_length, c.fields_width, List.length_take, List.length_map,
        List.length_replicate]
      simp
    · obtain rfl := Option.some.inj hc
      refine ⟨_, _, left, fun absent => ?_, fun f present => ?_, form⟩
      · simpa [absent] using stopped
      · simpa [present] using running

/-! ### READ_ALLOCATION (R123, R156) -/

theorem lastComputationBytes_eq (c : Option LastComputation) : lastComputationBytes c = match c with
    | some c => laidOut [(4, c.time), (2, c.available), (2, min 65535 c.manual), (2, c.remaining)]
    | none => List.replicate 10 0 := by
  cases c with
  | none => rfl
  | some c => exact joinFields_eq_laidOut _ _

theorem lastComputationBytes_length (c : Option LastComputation) : (lastComputationBytes c).length = 10 := by
  rw [lastComputationBytes_eq]
  cases c <;> simp [laidOut_length]

/-- The fields of the Allocator before the last computation, with their widths. -/
def Allocator.fields (ds : Nat) (a : Allocator) : List (Nat × Nat) :=
  [(1, if a.running then 1 else 0)] ++ ((List.finRange 8).map fun k : Fin 8 => (2, a.banks[k])) ++
    [(1, a.observed.val), (1, a.selected.val), (2, roundedUp 2 ds a.settleTimer),
     (2, a.budget), (2, a.period), (2, a.guardBand), (2, a.overrideBudget),
     (4, a.imminentThreshold), (1, a.settleTime), (2, roundedUp 2 ds a.periodTimer),
     (1, (if a.overrun then 1 else 0) + (if a.last.isSome then 2 else 0))]

theorem Allocator.bytes_eq {a : Allocator} (ds : Nat) (few : a.runOrder.length ≤ 32) : a.bytes ds =
    laidOut (a.fields ds) ++ lastComputationBytes a.last ++ bytesOf 1 a.runOrder.length ++
      (a.runOrder.map (fun i : Fin 32 => BitVec.ofNat 8 i.val) ++ List.replicate 32 0).take 32 := by
  have flags : bitsOf [a.overrun, a.last.isSome] = (if a.overrun then 1 else 0) + (if a.last.isSome then 2 else 0) := by
    simp [bitsOf]
  have banks : a.banks.toList.flatMap (bytesOf 2) = laidOut ((List.finRange 8).map fun k : Fin 8 => (2, a.banks[k])) := by
    rw [laidOut, List.flatMap_map]
    have entries : a.banks.toList = (List.finRange 8).map fun k : Fin 8 => a.banks[k] :=
      List.ext_getElem (by simp) (by simp)
    rw [entries, List.flatMap_map]
  rw [bytes, List.append_assoc _ (List.flatMap _ _), indexBytes_padded _ few, flags, banks, timerField_roundedUp,
    timerField_roundedUp]
  simp [joinFields_eq_laidOut, laidOut, fields, flagCode]

/-- The fields of the Intake Guard before the hold's times, with their widths. -/
def Guard.fields (ds : Nat) (g : Guard) : List (Nat × Nat) :=
  [(1, match g.trip with | .armed _ => 0 | .blanked _ => 1 | .tripped _ => 2),
   (1, if g.lineHigh then 1 else 0),
   (2, roundedUp 2 ds (match g.trip with | .armed f => f | .blanked _ => none | .tripped _ => none)),
   (2, roundedUp 2 ds (match g.trip with | .blanked e => some e | .armed _ => none | .tripped _ => none)),
   (2, roundedUp 2 ds (match g.trip with | .tripped e => some e | .armed _ => none | .blanked _ => none)),
   (2, g.tripCount), (2, g.extensionCount), (1, g.filterTime), (2, g.blankTime),
   (2, g.offTime), (4, g.longestHold),
   (1, match g.hold with | .noHold => 0 | .held _ _ _ _ => 1 | .overridden _ _ => 2)]

/-- The presence bits of the hold's times. -/
def Hold.presence (h : Hold) : Nat :=
  bitsOf [h.startTime.isSome, h.limitTime.isSome, h.endTime.isSome]

theorem Guard.bytes_eq (ds : Nat) (g : Guard) : g.bytes ds = laidOut (g.fields ds ++
    [(1, g.hold.presence), (4, g.hold.startTime.getD 0), (4, g.hold.limitTime.getD 0), (4, g.hold.endTime.getD 0),
     (4, g.hold.secondsLeft ds)]) := by
  have trip : g.trip.code = match g.trip with | .armed _ => 0 | .blanked _ => 1 | .tripped _ => 2 := by
    cases g.trip <;> rfl
  have filter : g.trip.filterTimer = match g.trip with | .armed f => f | .blanked _ => none | .tripped _ => none := by
    cases g.trip <;> rfl
  have blank : g.trip.blankTimer = match g.trip with | .blanked e => some e | .armed _ => none | .tripped _ => none := by
    cases g.trip <;> rfl
  have off : g.trip.offTimer = match g.trip with | .tripped e => some e | .armed _ => none | .blanked _ => none := by
    cases g.trip <;> rfl
  have hold : g.hold.code = match g.hold with | .noHold => 0 | .held _ _ _ _ => 1 | .overridden _ _ => 2 := by
    cases g.hold <;> rfl
  rw [bytes, timerField_roundedUp, timerField_roundedUp, timerField_roundedUp, trip, filter, blank, off, hold]
  simp [joinFields_eq_laidOut, laidOut, fields, flagCode, Hold.presence]

theorem Guard.bytes_length (ds : Nat) (g : Guard) : (g.bytes ds).length = 39 := by
  rw [bytes_eq, laidOut_length]
  simp [fields]

theorem Allocator.bytes_length {a : Allocator} (ds : Nat) (few : a.runOrder.length ≤ 32) : (a.bytes ds).length = 80 := by
  rw [bytes_eq ds few]
  simp [fields, laidOut_length, lastComputationBytes_length, Function.comp_def]

theorem readAllocation_laidOut {s : State} {tag : Byte} (taken : s.takes tag .readAllocation)
    (few : s.alloc.runOrder.length ≤ 32) :
    ∃ (payload last : List Byte) (start limit stop left : Nat) (presence : Nat), payload.length = 119 ∧
      exec .readAllocation s = .next (s.replied tag .ok payload) ∧
      last = (match s.alloc.last with
        | some c => laidOut [(4, c.time), (2, c.available), (2, min 65535 c.manual), (2, c.remaining)]
        | none => List.replicate 10 0) ∧
      (s.guard.hold = .noHold → presence = 0 ∧ start = 0 ∧ limit = 0 ∧ stop = 0 ∧ left = 0) ∧
      (∀ a b c timer, s.guard.hold = .held a b c timer →
        presence = 7 ∧ start = a ∧ limit = b ∧ stop = c ∧ left = (timer - s.ds + 9) / 10) ∧
      (∀ a b, s.guard.hold = .overridden a b → presence = 7 ∧ start = a ∧ limit = b ∧ stop = b ∧ left = 0) ∧
      payload = laidOut (s.alloc.fields s.ds) ++ last ++ bytesOf 1 s.alloc.runOrder.length ++
        (s.alloc.runOrder.map (fun i : Fin 32 => BitVec.ofNat 8 i.val) ++ List.replicate 32 0).take 32 ++
        laidOut (s.guard.fields s.ds ++ [(1, presence), (4, start), (4, limit), (4, stop), (4, left)]) := by
  refine ⟨s.alloc.bytes s.ds ++ s.guard.bytes s.ds, _, _, _, _, _, _, ?_, exec_accepted (exec_readAllocation_taken taken) rfl,
    lastComputationBytes_eq s.alloc.last, ?_, ?_, ?_, by rw [Allocator.bytes_eq s.ds few, Guard.bytes_eq]⟩
  · rw [List.length_append, Allocator.bytes_length s.ds few, Guard.bytes_length]
  · intro none
    rw [none]
    exact ⟨rfl, rfl, rfl, rfl, rfl⟩
  · intro a b c timer held
    rw [held]
    exact ⟨rfl, rfl, rfl, rfl, rfl⟩
  · intro a b overridden
    rw [overridden]
    exact ⟨rfl, rfl, rfl, rfl, rfl⟩

/-- Settles O49: the layouts of the three reads, record by record. -/
theorem rainAndAllocationReadsLaidOut : Obligations.RainAndAllocationReadsLaidOut :=
  ⟨fun _ _ _ => readGauge_laidOut, fun _ _ _ => readCatchment_laidOut, fun _ _ => readAllocation_laidOut⟩

end Sys2Proof.Machine
end

section
/-! PROOFS. The settings (R184, R36) and the Notice Set (R185 to R187). -/

namespace Sys2Proof.Machine

/-! ### Counted lists of pairs -/

/-- The first pair of a counted list is read back from its bytes (R184). -/
theorem pairsOf_succ_bytesOf {xWidth yWidth x y : Nat} (n : Nat) (rest : List Byte) (hx : x < 256 ^ xWidth) (hy : y < 256 ^ yWidth) :
    pairsOf xWidth yWidth (n + 1) (bytesOf xWidth x ++ bytesOf yWidth y ++ rest) =
      { x := x, y := y } :: pairsOf xWidth yWidth n rest := by
  have first : (bytesOf xWidth x ++ bytesOf yWidth y ++ rest).take xWidth = bytesOf xWidth x := by
    rw [List.append_assoc, List.take_left' (bytesOf_length _ _)]
  have second : (bytesOf xWidth x ++ bytesOf yWidth y ++ rest).drop xWidth = bytesOf yWidth y ++ rest := by
    rw [List.append_assoc, List.drop_left' (bytesOf_length _ _)]
  have left : (bytesOf xWidth x ++ bytesOf yWidth y ++ rest).drop (xWidth + yWidth) = rest :=
    List.drop_left' (by simp)
  rw [pairsOf, first, second, left, List.take_left' (bytesOf_length _ _), numberOf_bytesOf _ _ hx, numberOf_bytesOf _ _ hy]

/-! ### One setting -/

section
variable {k n v : Nat} {s : State}

theorem State.formImminents_setting : (State.formImminents s).setting k = s.setting k := by
  rw [State.setting.eq_def, State.setting.eq_def]
  split <;> simp

/-- A setting after one is written. -/
theorem State.writeSetting_setting (low : 1 ≤ k) (high : k ≤ 11) :
    (s.writeSetting n v).setting k = if n = k then v else s.setting k := by
  rw [State.writeSetting.eq_def]
  split
  case h_4 => rw [State.formImminents_setting]; interval_cases k <;> rfl
  case h_12 =>
    have other : n ≠ k := by
      rintro rfl
      interval_cases n <;> simp_all
    rw [if_neg other]
  all_goals interval_cases k <;> rfl

theorem State.writeSetting_tanks_of_ne (other : n ≠ 4) : (s.writeSetting n v).tanks = s.tanks := by
  rw [State.writeSetting.eq_def]
  split
  case h_4 => exact absurd rfl other
  all_goals rfl

theorem State.writeSetting_notices_of_ne (other : n ≠ 4) : (s.writeSetting n v).notices = s.notices := by
  rw [State.writeSetting.eq_def]
  split
  case h_4 => exact absurd rfl other
  all_goals rfl

end

/-- The fields that SET_LIMITS may write, taken from another state. -/
def State.withSettingsOf (s t : State) : State :=
  { s with
    tanks := t.tanks, notices := t.notices, windowHours := t.windowHours
    alloc := { s.alloc with
      period := t.alloc.period, guardBand := t.alloc.guardBand, overrideBudget := t.alloc.overrideBudget
      imminentThreshold := t.alloc.imminentThreshold, settleTime := t.alloc.settleTime }
    alerts := { s.alerts with interval := t.alerts.interval }
    guard := { s.guard with
      filterTime := t.guard.filterTime, blankTime := t.guard.blankTime, offTime := t.guard.offTime
      longestHold := t.guard.longestHold } }

theorem State.writeSetting_frame (n v : Nat) (s : State) : s.writeSetting n v = s.withSettingsOf (s.writeSetting n v) := by
  rw [State.writeSetting.eq_def]
  split
  case h_4 => apply State.ext_fields <;> simp [State.withSettingsOf]
  all_goals rfl

/-! ### All the settings of a list -/

/-- The settings of a list written in order (R184). -/
def State.writeSettings (entries : List Point) (s : State) : State :=
  entries.foldl (fun s e => s.writeSetting e.x (settingUsed e.x e.y)) s

theorem State.writeSettings_cons (e : Point) (entries : List Point) (s : State) :
    s.writeSettings (e :: entries) = (s.writeSetting e.x (settingUsed e.x e.y)).writeSettings entries := rfl

theorem State.writeSettings_append (a b : List Point) (s : State) :
    s.writeSettings (a ++ b) = (s.writeSettings a).writeSettings b :=
  List.foldl_append

theorem State.writeSettings_frame (entries : List Point) (s : State) :
    s.writeSettings entries = s.withSettingsOf (s.writeSettings entries) := by
  induction entries generalizing s with
  | nil => rfl
  | cons e entries ih =>
    rw [State.writeSettings_cons]
    calc (s.writeSetting e.x (settingUsed e.x e.y)).writeSettings entries
      _ = (s.writeSetting e.x (settingUsed e.x e.y)).withSettingsOf
            ((s.writeSetting e.x (settingUsed e.x e.y)).writeSettings entries) := ih _
      _ = (s.withSettingsOf (s.writeSetting e.x (settingUsed e.x e.y))).withSettingsOf
            ((s.writeSetting e.x (settingUsed e.x e.y)).writeSettings entries) := by rw [← State.writeSetting_frame]
      _ = s.withSettingsOf ((s.writeSetting e.x (settingUsed e.x e.y)).writeSettings entries) := rfl

section
variable {entries : List Point} {k : Nat} {s : State}

theorem State.writeSettings_setting_kept (low : 1 ≤ k) (high : k ≤ 11) (unnamed : k ∉ entries.map Point.x) :
    (s.writeSettings entries).setting k = s.setting k := by
  induction entries generalizing s with
  | nil => rfl
  | cons e entries ih =>
    obtain ⟨notFirst, notLater⟩ := not_or.1 (mt List.mem_cons.2 unnamed)
    rw [State.writeSettings_cons, ih notLater, State.writeSetting_setting low high, if_neg (Ne.symm notFirst)]

theorem State.writeSettings_setting_used (numbers : ∀ e ∈ entries, 1 ≤ e.x ∧ e.x ≤ 11) (once : (entries.map Point.x).Nodup) :
    ∀ e ∈ entries, (s.writeSettings entries).setting e.x = settingUsed e.x e.y := by
  intro e he
  obtain ⟨before, after, rfl⟩ := List.append_of_mem he
  obtain ⟨low, high⟩ := numbers e he
  have fresh : e.x ∉ after.map Point.x := by
    simp only [List.map_append, List.map_cons, List.nodup_append, List.nodup_cons] at once
    exact once.2.1.1
  rw [State.writeSettings_append, State.writeSettings_cons, State.writeSettings_setting_kept low high fresh,
    State.writeSetting_setting low high, if_pos rfl]

theorem State.writeSettings_threshold_kept (unnamed : 4 ∉ entries.map Point.x) :
    (s.writeSettings entries).tanks = s.tanks ∧ (s.writeSettings entries).notices = s.notices := by
  induction entries generalizing s with
  | nil => exact ⟨rfl, rfl⟩
  | cons e entries ih =>
    obtain ⟨notFirst, notLater⟩ := not_or.1 (mt List.mem_cons.2 unnamed)
    obtain ⟨tanks, notices⟩ := ih (s := s.writeSetting e.x (settingUsed e.x e.y)) notLater
    exact ⟨tanks.trans (State.writeSetting_tanks_of_ne (Ne.symm notFirst)),
      notices.trans (State.writeSetting_notices_of_ne (Ne.symm notFirst))⟩

theorem State.formImminents_tank (s : State) (i : Fin 32) : s.formImminents.tanks[i] = (s.tanks[i]).map fun u =>
    { u with service := u.service.map fun v => { v with level := { v.level with
        imminent := formImminent v.level.timeToSpill s.alloc.imminentThreshold } } } := by
  rw [State.formImminents, State.postTanks_tanks, State.mapTanks_tanks]
  rfl

theorem State.formImminents_notices (s : State) : s.formImminents.notices = (s.postTanks fun i => match s.serviceAt i with
    | some (_, v) =>
      if v.level.imminent = false ∧ formImminent v.level.timeToSpill s.alloc.imminentThreshold = true then [.imminent] else []
    | none => []).notices := by
  rw [State.formImminents]
  refine (postTanks_notices_congr (s := s) (by simp) _).trans ?_
  refine congrArg (fun posts => (s.postTanks posts).notices) (funext fun i => ?_)
  cases s.serviceAt i with
  | none => rfl
  | some p => simp [and_comm]

/-- The imminent threshold written where neither a tank nor a notice has changed before (R36). -/
theorem State.writeThreshold {b : State} (used : Nat) (tanks : b.tanks = s.tanks) (notices : b.notices = s.notices) :
    (∀ i : Fin 32, (b.writeSetting 4 used).tanks[i] = (s.tanks[i]).map fun u =>
      { u with service := u.service.map fun v => { v with level := { v.level with
          imminent := formImminent v.level.timeToSpill used } } }) ∧
    (b.writeSetting 4 used).notices = (s.postTanks fun i => match s.serviceAt i with
      | some (_, v) =>
        if v.level.imminent = false ∧ formImminent v.level.timeToSpill used = true then [.imminent] else []
      | none => []).notices := by
  have service : ∀ i : Fin 32, b.serviceAt i = s.serviceAt i := fun i => by rw [State.serviceAt, State.serviceAt, tanks]
  refine ⟨fun i => ?_, ?_⟩
  · rw [← tanks]
    exact State.formImminents_tank _ i
  · rw [← postTanks_notices_congr notices]
    simp only [← service]
    exact (State.formImminents_notices _).trans (postTanks_notices_congr (t := { b with alloc := _ }) rfl _)

theorem State.writeSettings_threshold_used (once : (entries.map Point.x).Nodup) (named : 4 ∈ entries.map Point.x) :
    (∀ i : Fin 32, (s.writeSettings entries).tanks[i] = (s.tanks[i]).map fun u =>
      { u with service := u.service.map fun v => { v with level := { v.level with
          imminent := formImminent v.level.timeToSpill (s.writeSettings entries).alloc.imminentThreshold } } }) ∧
    (s.writeSettings entries).notices = (s.postTanks fun i => match s.serviceAt i with
      | some (_, v) =>
        if v.level.imminent = false ∧
          formImminent v.level.timeToSpill (s.writeSettings entries).alloc.imminentThreshold = true
        then [.imminent] else []
      | none => []).notices := by
  obtain ⟨e, he, number⟩ := List.mem_map.1 named
  obtain ⟨before, after, rfl⟩ := List.append_of_mem he
  simp only [List.map_append, List.map_cons, number, List.nodup_append, List.nodup_cons, List.mem_cons] at once
  obtain ⟨-, ⟨notAfter, -⟩, apart⟩ := once
  have notBefore : 4 ∉ before.map Point.x := fun inside => apart 4 inside 4 (.inl rfl) rfl
  obtain ⟨tanksBefore, noticesBefore⟩ := State.writeSettings_threshold_kept (s := s) notBefore
  obtain ⟨tanks, notices⟩ := State.writeThreshold (settingUsed 4 e.y) tanksBefore noticesBefore
  obtain ⟨tanksAfter, noticesAfter⟩ := State.writeSettings_threshold_kept
    (s := (s.writeSettings before).writeSetting 4 (settingUsed 4 e.y)) notAfter
  have threshold : (((s.writeSettings before).writeSetting 4 (settingUsed 4 e.y)).writeSettings after).alloc.imminentThreshold =
      settingUsed 4 e.y := by
    have kept := State.writeSettings_setting_kept (s := (s.writeSettings before).writeSetting 4 (settingUsed 4 e.y))
      (by decide) (by decide) notAfter
    rwa [State.writeSetting_setting (by decide) (by decide), if_pos rfl] at kept
  rw [State.writeSettings_append, State.writeSettings_cons, number, threshold, tanksAfter, noticesAfter]
  exact ⟨tanks, notices⟩

end

/-! ### SET_LIMITS (R184) -/

theorem settingNumbersOk_iff (entries : List Point) : settingNumbersOk entries = true ↔
    (∀ e ∈ entries, 1 ≤ e.x ∧ e.x ≤ 11) ∧ (entries.map Point.x).Nodup := by
  simp [settingNumbersOk]

theorem answerSetLimits_ok {n : Nat} {body : List Byte} (s : State) (count : 1 ≤ n ∧ n ≤ 11) (length : body.length = 5 * n)
    (ok : settingNumbersOk (pairsOf 1 4 n body) = true) : answerSetLimits n body s = accept
      ((pairsOf 1 4 n body).flatMap fun e => bytesOf 1 e.x ++ bytesOf 4 (settingUsed e.x e.y))
      (s.writeSettings (pairsOf 1 4 n body)) := by
  rw [answerSetLimits, if_neg (by omega), if_neg (by omega)]
  refine (if_pos ok).trans ?_
  simp only [joinFields_cons]
  simp [joinFields, State.writeSettings]

/-- Settles O12: SET_LIMITS by its checks, and the list of settings by induction, split at the imminent threshold. -/
theorem settingsClampedAndWritten : Obligations.SettingsClampedAndWritten := by
  refine ⟨fun xWidth yWidth n x y rest hx hy => ⟨rfl, pairsOf_succ_bytesOf n rest hx hy⟩, ?_, formImminent_iff,
    fun s tag n body taken => ?_⟩
  · intro row hrow v
    simp only [List.mem_cons, List.not_mem_nil, or_false] at hrow
    rcases hrow with h | h | h | h | h | h | h | h | h | h | h <;> subst h <;> rfl
  · have answered := exec_setLimits_taken n body taken
    refine ⟨fun bad => refusedWith_of_answer answered (if_pos bad), fun low high length => ?_, fun low high length => ⟨?_, ?_⟩⟩
    · exact refusedWith_of_answer answered ((if_neg (by omega)).trans (if_pos length))
    · intro bad
      exact refusedWith_of_answer answered ((if_neg (by omega)).trans ((if_neg (by omega)).trans
        (if_neg (mt (settingNumbersOk_iff _).1 bad))))
    · intro numbers once
      refine ⟨s.writeSettings (pairsOf 1 4 n body),
        exec_accepted answered (answerSetLimits_ok s ⟨low, high⟩ length ((settingNumbersOk_iff _).2 ⟨numbers, once⟩)),
        State.writeSettings_setting_used numbers once, fun k low high => State.writeSettings_setting_kept low high,
        State.writeSettings_threshold_kept, State.writeSettings_threshold_used once, State.writeSettings_frame _ s⟩

end Sys2Proof.Machine
end

section
/-! PROOFS. The Notice Set: postings under their enables (R185), SET_NOTICE_MASK (R186), READ_NOTICES (R187). -/

namespace Sys2Proof.Machine

/-! ### Postings to one entry -/

theorem TankPost.bit_lt (p : TankPost) : p.bit < 8 := by
  cases p <;> simp [bit]

theorem CatchmentPost.bit_lt (p : CatchmentPost) : p.bit < 3 := by
  cases p <;> decide

theorem AllocationPost.bit_lt (p : AllocationPost) : p.bit < 7 := by
  cases p <;> decide

/-- A kind made pending where its enable is set (R185). -/
theorem getLsbD_pending {w : Nat} (mask kinds : BitVec w) {bit : Nat} (h : bit < w) (b : Nat) :
    (if mask.getLsbD bit then kinds ||| BitVec.twoPow w bit else kinds).getLsbD b =
      (kinds.getLsbD b || (bit == b && mask.getLsbD b)) := by
  by_cases same : bit = b
  · subst same
    split <;> simp_all
  · split <;> simp [same, h]

section
variable (mask : BitVec 8) (e : TankNotice)

theorem TankNotice.post_kinds (p : TankPost) : (e.post mask p).kinds =
    if mask.getLsbD p.bit then e.kinds ||| BitVec.twoPow 8 p.bit else e.kinds := by
  rw [post.eq_def]
  split <;> rfl

theorem TankNotice.post_detail (p : TankPost) (h : mask.getLsbD 7 = false ∨ ∀ m, p ≠ .spillClosed m) :
    (e.post mask p).detail = e.detail := by
  rw [post.eq_def]
  split
  · next enabled =>
    cases p with
    | spillClosed m =>
      rcases h with disabled | other
      · exact absurd enabled (by simpa [TankPost.bit] using disabled)
      · exact absurd rfl (other m)
    | _ => rfl
  · rfl

theorem TankNotice.post_spillClosed (m : CloseMark) (h : mask.getLsbD 7 = true) :
    (e.post mask (.spillClosed m)).detail = some m :=
  congrArg TankNotice.detail (if_pos h)

/-- The kinds that a list of postings makes pending (R185). -/
theorem TankNotice.posts_kinds (posts : List TankPost) (b : Nat) : (posts.foldl (TankNotice.post mask) e).kinds.getLsbD b =
    (e.kinds.getLsbD b || (posts.any (fun p => p.bit == b) && mask.getLsbD b)) := by
  induction posts generalizing e with
  | nil => simp
  | cons p posts ih =>
    rw [List.foldl_cons, ih, post_kinds, getLsbD_pending mask e.kinds p.bit_lt, List.any_cons, Bool.and_or_distrib_right,
      Bool.or_assoc]

theorem TankNotice.posts_detail (posts : List TankPost) (h : mask.getLsbD 7 = false ∨ ∀ m, .spillClosed m ∉ posts) :
    (posts.foldl (TankNotice.post mask) e).detail = e.detail := by
  induction posts generalizing e with
  | nil => rfl
  | cons p posts ih =>
    have first : mask.getLsbD 7 = false ∨ ∀ m, p ≠ .spillClosed m :=
      h.imp_right fun closed m same => closed m (same ▸ List.mem_cons_self)
    have later : mask.getLsbD 7 = false ∨ ∀ m, .spillClosed m ∉ posts :=
      h.imp_right fun closed m inside => closed m (List.mem_cons_of_mem _ inside)
    rw [List.foldl_cons, ih _ later, post_detail mask e p first]

theorem TankNotice.posts_lastClose {posts before after : List TankPost} {m : CloseMark} (enabled : mask.getLsbD 7 = true)
    (split : posts = before ++ .spillClosed m :: after) (last : ∀ n, .spillClosed n ∉ after) :
    (posts.foldl (TankNotice.post mask) e).detail = some m := by
  rw [split, List.foldl_append, List.foldl_cons, posts_detail mask _ after (.inr last), post_spillClosed mask _ m enabled]

end

/-- The kinds that a list of postings makes pending for a catchment (R185). -/
theorem postCatchmentEntries (mask e : BitVec 3) (posts : List CatchmentPost) (b : Nat) :
    (posts.foldl (postCatchmentEntry mask) e).getLsbD b = (e.getLsbD b || (posts.any (fun p => p.bit == b) && mask.getLsbD b)) := by
  induction posts generalizing e with
  | nil => simp
  | cons p posts ih =>
    rw [List.foldl_cons, ih, postCatchmentEntry, getLsbD_pending mask e p.bit_lt, List.any_cons, Bool.and_or_distrib_right,
      Bool.or_assoc]

/-! ### Postings to the Notice Set -/

section
variable (s : State)

theorem State.postTanks_entry (posts : Fin 32 → List TankPost) (i : Fin 32) :
    (s.postTanks posts).notices.tanks[i] = (posts i).foldl (TankNotice.post s.notices.tankMask) s.notices.tanks[i] := by
  simp [State.postTanks, Notices.settled]

theorem State.postCatchments_entry (posts : Fin 8 → List CatchmentPost) (k : Fin 8) :
    (s.postCatchments posts).notices.catchments[k] =
      (posts k).foldl (postCatchmentEntry s.notices.catchmentMask) s.notices.catchments[k] := by
  simp [State.postCatchments, Notices.settled]

end

/-- SET_NOTICE_MASK (R186). -/
theorem answerSetNoticeMask_eq (s : State) {t : Nat} (c a : Nat) (h : t < 256) : answerSetNoticeMask t c a s = accept
    (bytesOf 1 t ++ bytesOf 1 (c % 8) ++ bytesOf 1 (a % 128))
    { s with notices := { s.notices with
        tankMask := BitVec.ofNat 8 t, catchmentMask := BitVec.ofNat 3 c, allocationMask := BitVec.ofNat 7 a } } := by
  have whole : (BitVec.ofNat 8 t).toNat = t := by simp; omega
  simp only [answerSetNoticeMask, whole, BitVec.toNat_ofNat, joinFields_cons]
  simp [joinFields]

/-- Settles O13: the enables written, and each posting by its entry. -/
theorem noticesMaskedAndPosted : Obligations.NoticesMaskedAndPosted := by
  refine ⟨⟨rfl, fun m => rfl, rfl, rfl⟩, fun s tag t c a fits taken => ?_, fun s => ⟨fun posts => ?_, fun i posts => rfl, fun posts => ?_,
    fun p => ?_⟩⟩
  · exact exec_accepted (exec_setNoticeMask_taken t c a taken) (answerSetNoticeMask_eq s c a fits)
  · refine ⟨_, rfl, rfl, attnFollows_settled _, fun i => ?_⟩
    rw [State.postTanks_entry]
    exact ⟨TankNotice.posts_kinds _ _ _, TankNotice.posts_detail _ _ _,
      fun enabled before m after => TankNotice.posts_lastClose _ _ enabled⟩
  · refine ⟨_, rfl, rfl, attnFollows_settled _, fun k b => ?_⟩
    rw [State.postCatchments_entry]
    exact postCatchmentEntries _ _ _ _
  · refine ⟨_, rfl, rfl, fun b => ?_, attnFollows_settled _⟩
    refine (getLsbD_pending _ _ p.bit_lt b).trans ?_
    simp [eq_comm, beq_eq_decide]

/-! ### READ_NOTICES (R187) -/

/-- An entry of READ_NOTICES: four bytes. -/
theorem noticeEntry_eq (sort index detail : Nat) {w : Nat} (kinds : BitVec w) :
    joinFields [1, 1, 1, 1] [sort, index, kinds.toNat, detail] =
      [BitVec.ofNat 8 sort, BitVec.ofNat 8 index, kinds.setWidth 8, BitVec.ofNat 8 detail] := by
  simp [joinFields, bytesOf]

theorem detailCode_byte (d : Option CloseMark) : BitVec.ofNat 8 (detailCode d) = match d with
    | some .ended => 1
    | some .lost => 2
    | some .cut => 3
    | none => 0 := by
  rcases d with _ | m
  · rfl
  · cases m <;> rfl

/-- The entries present, one by one in index order. -/
theorem flatMap_present {α β : Type} (list : List α) (absent : α → Prop) [DecidablePred absent] (entry : α → β) :
    list.flatMap (fun x => if absent x then [] else [entry x]) =
      list.filterMap fun x => if absent x then none else some (entry x) := by
  rw [List.filterMap_eq_flatMap_toList]
  refine congrArg (List.flatMap · list) (funext fun x => ?_)
  split <;> rfl

theorem Notices.entries_eq (n : Notices) : n.entries =
    (if n.allocation = 0 then [] else [[0, BitVec.ofNat 8 (Config.unstated .allocationNoticeIndex), n.allocation.setWidth 8,
      BitVec.ofNat 8 (Config.unstated .allocationNoticeDetail)]]) ++
    ((List.finRange 32).filterMap fun i : Fin 32 => if n.tanks[i].kinds = 0 then none else
      some [1, BitVec.ofNat 8 i, n.tanks[i].kinds,
        match n.tanks[i].detail with
          | some .ended => 1
          | some .lost => 2
          | some .cut => 3
          | none => 0]) ++
    ((List.finRange 8).filterMap fun k : Fin 8 => if n.catchments[k] = 0 then none else
      some [2, BitVec.ofNat 8 k, n.catchments[k].setWidth 8, BitVec.ofNat 8 (Config.unstated .catchmentNoticeDetail)]) := by
  simp only [Notices.entries, noticeEntry_eq, detailCode_byte, BitVec.setWidth_eq, flatMap_present]
  rfl

theorem TankNotice.collected_kinds (e : TankNotice) : e.collected.kinds = 0 := by
  rw [collected]
  split
  · assumption
  · rfl

theorem Notices.collected_eq (n : Notices) : n.collected = { n with
    allocation := 0, catchments := Vector.replicate 8 0, attn := false
    tanks := n.tanks.map fun e => if e.kinds = 0 then e else { kinds := 0, detail := none } } := by
  have nothing : ({ n with
      allocation := 0, tanks := n.tanks.map TankNotice.collected, catchments := Vector.replicate 8 0 } : Notices).anyPending = false := by
    rw [Bool.eq_false_iff, ne_eq, Notices.anyPending_iff]
    simp [TankNotice.collected_kinds]
  rw [Notices.collected, Notices.settled, nothing]
  rfl

/-- Settles O14: the entries with a pending kind, and the Notice Set without them. -/
theorem readNoticesCollects : Obligations.ReadNoticesCollects := by
  intro s tag taken
  refine ⟨_, _, _, s.notices.entries, s.notices.entries_eq, ?_⟩
  rw [← s.notices.collected_eq]
  exact exec_accepted (exec_readNotices_taken taken) rfl

end Sys2Proof.Machine
end

section
/-! PROOFS. CLEAR_STATE: every block cleared, then the Intake Guard, then the Notice Set (R191). -/

namespace Sys2Proof.Machine

/-! ### Entry into TRIPPED with nothing to zero and nothing to flag -/

theorem Service.flagged_quiet {v : Service} (h : v.spilling = .quiet) : v.flagged = v := by
  cases v
  simp_all [flagged, Spilling.restrict]

theorem Tank.mapService_fixed {t : Tank} {f : Service → Service} (h : ∀ v, t.service = some v → f v = v) : t.mapService f = t := by
  cases present : t.service with
  | none => exact t.mapService_absent present f
  | some v => rw [t.mapService_present present, h v present, ← present]

/-- Orders at 0 and no spill in hand at any tank. -/
def Idle (s : State) : Prop :=
  (∀ i : Fin 32, s.orders[i].active = 0 ∧ s.orders[i].next = 0) ∧
    ∀ (i : Fin 32) (t : Tank) (v : Service), s.tanks[i] = some t → t.service = some v → v.spilling = .quiet

theorem enterTripped_idle_orders {s : State} (h : Idle s) : (enterTripped s).orders = s.orders := by
  refine Vector.ext fun i hi => ?_
  obtain ⟨active, next⟩ := h.1 ⟨i, hi⟩
  refine (enterTripped_order s (i := ⟨i, hi⟩)).trans ?_
  split
  · have changed : (s.orders[i].activeChanged || s.orders[i].active != 0) = s.orders[i].activeChanged := by
      rw [show s.orders[i].active = 0 from active]
      simp
    exact OrderEntry.ext_fields active.symm next.symm rfl changed
  · rfl

theorem enterTripped_idle_tanks {s : State} (h : Idle s) : (enterTripped s).tanks = s.tanks := by
  refine Vector.ext fun i hi => ?_
  obtain ⟨active, -⟩ := h.1 ⟨i, hi⟩
  have flagged : ((s.tanks[i]).map fun t => t.mapService Service.flagged) = s.tanks[i] := by
    cases defined : s.tanks[i] with
    | none => rfl
    | some t =>
      exact congrArg some (t.mapService_fixed fun v present => Service.flagged_quiet (h.2 ⟨i, hi⟩ t v defined present))
  cases auto : s.autoInService ⟨i, hi⟩ with
  | false => exact (enterTripped_tank_other s auto).trans flagged
  | true =>
    refine (enterTripped_tank_auto s auto).trans ?_
    have unchanged : ∀ t : Tank, t.mapService (Service.activeChange t.defn s.orders[i].active 0) = t := fun t => by
      rw [show s.orders[i].active = 0 from active]
      exact t.mapService_same _ _
    simp only [Fin.getElem_fin, flagged, unchanged, Option.map_id']

/-! ### The Intake Guard (R158) -/

section
variable {b : State}

theorem clearGuard_low (h : b.guard.lineHigh = false) :
    clearGuard b = { b with guard := { b.guard with hold := .noHold, trip := .armed none } } := by
  have low : ¬(b.setHold .noHold).guard.lineHigh = true := by simp [State.setHold, h]
  exact if_neg low

theorem clearGuard_filter (h : b.guard.lineHigh = true) (waits : 0 < b.guard.filterTime) : clearGuard b =
    { b with guard := { b.guard with hold := .noHold, trip := .armed (some (b.ds + 10 * b.guard.filterTime)) } } := by
  have high : (b.setHold .noHold).guard.lineHigh = true := h
  exact (if_pos high).trans (startFilter_of_pos waits)

theorem clearGuard_trips (h : b.guard.lineHigh = true) (atOnce : b.guard.filterTime = 0) : clearGuard b =
    enterTripped { b with guard := { b.guard with hold := .noHold, trip := .armed none } } := by
  have high : (b.setHold .noHold).guard.lineHigh = true := h
  exact (if_pos high).trans (startFilter_of_zero atOnce)

/-- Two Notice Sets have the same enables. -/
def SameMasks (m n : Notices) : Prop :=
  m.allocationMask = n.allocationMask ∧ m.tankMask = n.tankMask ∧ m.catchmentMask = n.catchmentMask

/-- With every block cleared before, clearing the Intake Guard writes nothing but its record and postings. -/
theorem clearGuard_frame (h : Idle b) {u : State} (hu : u = clearGuard b) :
    u = { b with guard := u.guard, notices := u.notices } ∧ SameMasks u.notices b.notices := by
  subst hu
  cases line : b.guard.lineHigh with
  | false =>
    rw [clearGuard_low line]
    exact ⟨rfl, rfl, rfl, rfl⟩
  | true =>
    rcases Nat.eq_zero_or_pos b.guard.filterTime with atOnce | waits
    · rw [clearGuard_trips line atOnce]
      have idle : Idle { b with guard := { b.guard with hold := .noHold, trip := .armed none } } := h
      refine ⟨?_, ?_⟩
      · apply State.ext_fields
        case orders => simp only [enterTripped_idle_orders idle]
        case tanks => simp only [enterTripped_idle_tanks idle]
        all_goals simp
      · rw [enterTripped_notices]
        exact ⟨rfl, rfl, rfl⟩
    · rw [clearGuard_filter line waits]
      exact ⟨rfl, rfl, rfl, rfl⟩

end

/-! ### The blocks before it (R21, R45, R61, R77, R99, R125, R139, R171) -/

section
variable (s : State) (i : Fin 32)

theorem clearBlocks_order : (clearBlocks s).orders[i] =
    { active := 0, next := 0, mark := s.orders[i].mark, activeChanged := s.orders[i].activeChanged || s.orders[i].active != 0 } := by
  have order := congrArg Slot.order (clearBlocks_slot s i)
  refine order.trans ?_
  simp only [Slot.withdrawn, Slot.write, OrderEntry.withActive_eq, bne_comm (a := (0 : Nat))]
  rfl

theorem Tank.clearState_activeChange (lines : Vector Bool 4) (t : Tank) (d : TankDef) (old new : Nat) :
    (t.mapService (Service.activeChange d old new)).clearState lines = t.clearState lines := by
  cases present : t.service with
  | none => rw [t.mapService_absent present]
  | some v =>
    have same : closeAtLastReport .cut (v.activeChange d old new) t.book = closeAtLastReport .cut v t.book := by
      rw [Service.activeChange]
      split <;> rfl
    simp only [Tank.clearState, t.mapService_present present, present, same, Tank.formInhibit]

theorem clearBlocks_tank : (clearBlocks s).tanks[i] = (s.tanks[i]).map fun t => t.clearState s.pins.zinh := by
  have tank := congrArg Slot.tank (clearBlocks_slot s i)
  refine tank.trans ((Option.map_map ..).trans ?_)
  exact congrArg (fun f => Option.map f s.tanks[i]) (funext fun t => t.clearState_activeChange _ _ _ _)

theorem Tank.clearState_spec (lines : Vector Bool 4) (t : Tank) : ∃ (book : SpillBook) (inhibited : Bool),
    inhibited = Machine.formInhibit t.defn.combine lines[t.defn.zone] t.softInhibit ∧
    (t.service = none → book = t.book ∧ t.clearState lines = { t with inhibited := inhibited }) ∧
    ∀ v, t.service = some v →
      t.clearState lines = { t with inhibited := inhibited, book := book, service := some Service.fresh } ∧
      ((∀ e, v.spilling ≠ .event e) → book = t.book) ∧
      ∀ e r, v.spilling = .event e → v.level.lastReport = some r → book = t.book.close .cut r e := by
  cases present : t.service with
  | none =>
    exact ⟨t.book, _, rfl, fun _ => ⟨rfl, by simp only [Tank.clearState, present, Tank.formInhibit]⟩, by simp⟩
  | some v =>
    obtain ⟨-, quiet, event⟩ := closeAtLastReport_spec .cut v t.book
    refine ⟨(closeAtLastReport .cut v t.book).book, _, rfl, by simp, fun v' present' => ?_⟩
    obtain rfl := Option.some.inj present'
    exact ⟨by simp only [Tank.clearState, present, Tank.formInhibit], fun none => (quiet none).1,
      fun e r he hr => (event e r he hr).1⟩

theorem clearBlocks_idle : Idle (clearBlocks s) := by
  refine ⟨fun i => ?_, fun i t v defined present => ?_⟩
  · rw [clearBlocks_order]
    exact ⟨rfl, rfl⟩
  · rw [clearBlocks_tank] at defined
    obtain ⟨t', -, rfl⟩ := Option.map_eq_some_iff.1 defined
    obtain ⟨book, inhibited, -, offline, served⟩ := t'.clearState_spec s.pins.zinh
    cases before : t'.service with
    | none =>
      rw [(offline before).2] at present
      simp [before] at present
    | some w =>
      rw [(served w before).1] at present
      obtain rfl := Option.some.inj present
      rfl

theorem clearBlocks_alerts : (clearBlocks s).alerts = { s.alerts with rainAlert := false } := by
  have dry : Machine.formRainAlert (s.catchments.map fun c => c.map fun c => Catchment.fresh c.defn) = false := by
    rw [Bool.eq_false_iff, ne_eq, formRainAlert_iff]
    rintro ⟨k, c, hc, severe⟩
    simp only [Fin.getElem_fin, Vector.getElem_map, Option.mem_def, Option.map_eq_some_iff] at hc
    obtain ⟨c', -, rfl⟩ := hc
    simp [Catchment.fresh] at severe
  have formed : (clearBlocks s).alerts = { s.alerts with rainAlert := Machine.formRainAlert (clearBlocks s).catchments } := by
    simp [clearBlocks, clearCatchments, clearGauges, State.formRainAlert]
  rw [formed, clearBlocks_catchments, dry]

end

/-! ### The Notice Set last -/

theorem Notices.cleared_eq {m n : Notices} (h : SameMasks m n) : m.cleared = { n with
    allocation := 0, tanks := Vector.replicate 32 { kinds := 0, detail := none }, catchments := Vector.replicate 8 0
    attn := false } := by
  obtain ⟨allocation, tank, catchment⟩ := h
  have nothing : ({ m with
      allocation := 0, tanks := Vector.replicate 32 { kinds := 0, detail := none }
      catchments := Vector.replicate 8 0 } : Notices).anyPending = false := by
    rw [Bool.eq_false_iff, ne_eq, Notices.anyPending_iff]
    simp
  rw [Notices.cleared, Notices.settled, nothing, allocation, tank, catchment]

theorem State.openSpills_eq (s : State) : s.openSpills = sumTanks fun i => match s.serviceAt i with
    | some (_, v) => match v.spilling with
      | .event _ => 1
      | .candidate _ => 0
      | .quiet => 0
    | none => 0 := by
  refine congrArg sumTanks (funext fun i => ?_)
  rw [State.tankIs, State.serviceAt]
  cases s.tanks[i] with
  | none => rfl
  | some t =>
    cases present : t.service with
    | none => simp [Tank.openSpill, present]
    | some v =>
      simp only [Tank.openSpill, present, Option.bind_some, Option.map_some]
      cases v.spilling <;> rfl

/-- The fields that clearing the Intake Guard leaves as the blocks before it. -/
theorem State.guardFrame_fields {g b : State} (h : g = { b with guard := g.guard, notices := g.notices }) :
    g.orders = b.orders ∧ g.tanks = b.tanks ∧ g.gauges = b.gauges ∧ g.catchments = b.catchments ∧ g.alerts = b.alerts ∧
      g.alloc = b.alloc := by
  rw [h]
  exact ⟨rfl, rfl, rfl, rfl, rfl, rfl⟩

theorem clearBlocks_frame (s : State) : clearBlocks s = { s with
    orders := (clearBlocks s).orders, tanks := (clearBlocks s).tanks, gauges := (clearBlocks s).gauges
    catchments := (clearBlocks s).catchments, alerts := (clearBlocks s).alerts, alloc := (clearBlocks s).alloc } := by
  apply State.ext_fields <;> simp

/-- A state changed in some blocks, then in the Intake Guard, then in the Notice Set, is changed in these alone. -/
theorem State.clearedFrame {s b g : State} (n : Notices) (blocks : b = { s with
      orders := b.orders, tanks := b.tanks, gauges := b.gauges, catchments := b.catchments, alerts := b.alerts
      alloc := b.alloc }) (h : g = { b with guard := g.guard, notices := g.notices }) :
    { g with notices := n } = { s with
      orders := g.orders, tanks := g.tanks, gauges := g.gauges, catchments := g.catchments, alerts := g.alerts
      alloc := g.alloc, guard := g.guard, notices := n } := by
  obtain ⟨orders, tanks, gauges, catchments, alerts, alloc⟩ := State.guardFrame_fields h
  have last : { g with notices := n } = { b with guard := g.guard, notices := n } :=
    congrArg (fun u : State => { u with notices := n }) h
  refine last.trans ?_
  rw [orders, tanks, gauges, catchments, alerts, alloc]
  exact congrArg (fun u : State => { u with guard := g.guard, notices := n }) blocks

/-- Settles O50: the state that CLEAR_STATE leaves, block by block. -/
theorem stateCleared : Obligations.StateCleared := by
  intro s tag taken
  obtain ⟨g, hg⟩ : ∃ g, g = clearGuard (clearBlocks s) := ⟨_, rfl⟩
  obtain ⟨frame, masks⟩ := clearGuard_frame (clearBlocks_idle s) hg
  obtain ⟨orders, tanks, gauges, catchments, alerts, alloc⟩ := State.guardFrame_fields frame
  rw [clearBlocks_notices] at masks
  refine ⟨{ g with notices := g.notices.cleared }, s.openSpills, ?_, s.openSpills_eq, fun i => ?_, fun i => ⟨fun undefined => ?_,
    fun t defined => ?_⟩, ?_, ?_, ?_, ?_, fun low => ?_, fun high waits => ?_, fun high atOnce => ?_, Notices.cleared_eq masks, ?_⟩
  · rw [hg]
    exact exec_accepted (exec_clearState_taken taken) rfl
  · simp only [orders, clearBlocks_order, and_self]
  · simp only [tanks, clearBlocks_tank, undefined, Option.map_none]
  · obtain ⟨book, inhibited, formed, offline, served⟩ := t.clearState_spec s.pins.zinh
    have cleared : g.tanks[i] = some (t.clearState s.pins.zinh) := by
      simp only [tanks, clearBlocks_tank, defined, Option.map_some]
    exact ⟨book, inhibited, formed, fun absent => ⟨(offline absent).1, cleared.trans (congrArg some (offline absent).2)⟩,
      fun v present => ⟨cleared.trans (congrArg some (served v present).1), (served v present).2⟩⟩
  · exact gauges.trans (clearBlocks_gauges s)
  · exact catchments.trans (clearBlocks_catchments s)
  · exact alerts.trans (clearBlocks_alerts s)
  · exact alloc.trans (clearBlocks_alloc s)
  · have line : (clearBlocks s).guard.lineHigh = false := by rw [clearBlocks_guard, low]
    simp only [hg, clearGuard_low line, clearBlocks_guard]
  · have line : (clearBlocks s).guard.lineHigh = true := by rw [clearBlocks_guard, high]
    have filter : 0 < (clearBlocks s).guard.filterTime := by rwa [clearBlocks_guard]
    simp only [hg, clearGuard_filter line filter, clearBlocks_guard, clearBlocks_ds]
  · have line : (clearBlocks s).guard.lineHigh = true := by rw [clearBlocks_guard, high]
    have filter : (clearBlocks s).guard.filterTime = 0 := by rw [clearBlocks_guard, atOnce]
    simp only [hg, clearGuard_trips line filter, enterTripped_guard, clearBlocks_guard, clearBlocks_ds, satAdd, max16]
  · exact State.clearedFrame _ (clearBlocks_frame s) frame

end Sys2Proof.Machine
end

section
/-! PROOFS. The requests as a whole: each answered by its owner, which refuses or accepts (R181), every command's next state, and
the part in reset (R192). -/

namespace Sys2Proof.Machine

/-! ### The queue of waiting commands (log 1) -/

section
variable {s : State}

@[simp] theorem startFilter_pending : (startFilter s).pending = s.pending := by
  unfold startFilter
  (repeat' split) <;> simp

@[simp] theorem enterArmed_pending : (enterArmed s).pending = s.pending := by
  unfold enterArmed
  (repeat' split) <;> simp

@[simp] theorem sumRose_pending : (sumRose s).pending = s.pending := by
  unfold sumRose
  (repeat' split) <;> simp

@[simp] theorem extraRun_pending : (extraRun s).pending = s.pending := by
  unfold extraRun
  (repeat' split) <;> simp

@[simp] theorem leaveTripped_pending : (leaveTripped s).pending = s.pending := by
  unfold leaveTripped
  (repeat' split) <;> simp

@[simp] theorem tipEvent_pending (i : Fin 12) : (tipEvent i s).pending = s.pending := by
  unfold tipEvent
  (repeat' split) <;> simp

@[simp] theorem intakeEvent_pending (level : Bool) : (intakeEvent level s).pending = s.pending := by
  unfold intakeEvent
  (repeat' split) <;> simp

@[simp] theorem staleEvent_pending (i : Fin 32) : (staleEvent i s).pending = s.pending := by
  unfold staleEvent
  split
  · rfl
  split
  · dsimp only
    split <;> simp
  · rfl

@[simp] theorem dryGapEvent_pending (i : Fin 12) : (dryGapEvent i s).pending = s.pending := by
  unfold dryGapEvent
  (repeat' split) <;> simp

@[simp] theorem evaluationEvent_pending : (evaluationEvent s).pending = s.pending := by
  unfold evaluationEvent
  (repeat' split) <;> simp

@[simp] theorem floorEvent_pending (i : Fin 8) : (floorEvent i s).pending = s.pending := by
  unfold floorEvent
  (repeat' split) <;> simp

@[simp] theorem settleEvent_pending : (settleEvent s).pending = s.pending := by
  unfold settleEvent
  (repeat' split) <;> simp

@[simp] theorem runEvent_pending : (runEvent s).pending = s.pending := by
  unfold runEvent
  (repeat' split) <;> simp

@[simp] theorem filterEvent_pending : (filterEvent s).pending = s.pending := by
  unfold filterEvent
  (repeat' split) <;> simp

@[simp] theorem blankEvent_pending : (blankEvent s).pending = s.pending := by
  unfold blankEvent
  (repeat' split) <;> simp

@[simp] theorem offEvent_pending : (offEvent s).pending = s.pending := by
  unfold offEvent
  (repeat' split) <;> simp

@[simp] theorem holdEndEvent_pending : (holdEndEvent s).pending = s.pending := by
  unfold holdEndEvent
  (repeat' split) <;> simp

@[simp] theorem capSelEvent_pending : (capSelEvent s).pending = s.pending := by
  simp [capSelEvent]

@[simp] theorem beginTransaction_pending : (beginTransaction s).pending = s.pending := by
  unfold beginTransaction
  (repeat' split) <;> simp

@[simp] theorem refusedFrameEvent_pending : (refusedFrameEvent s).pending = s.pending := by
  unfold refusedFrameEvent
  (repeat' split) <;> simp

@[simp] theorem releaseEvent_pending : (releaseEvent s).pending = s.pending := by
  simp [releaseEvent]

@[simp] theorem clearGuard_pending : (clearGuard s).pending = s.pending := by
  simp [clearGuard]

@[simp] theorem writeSettings_pending (entries : List Point) :
    (entries.foldl (fun s e => s.writeSetting e.x (settingUsed e.x e.y)) s).pending = s.pending := by
  induction entries generalizing s with
  | nil => rfl
  | cons e entries ih => rw [List.foldl_cons, ih, State.writeSetting_pending]

end

/-! ### Answers -/

/-- An answer that is not OK has no payload and leaves the state as it was (R181), and none touches the queue (log 1). -/
def Answer.Lawful (s : State) (a : Answer) : Prop :=
  (a.status ≠ .ok → a.payload = [] ∧ a.state = s) ∧ a.state.pending = s.pending

@[simp] theorem refuse_lawful (status : Status) (s : State) : (refuse status s).Lawful s :=
  ⟨fun _ => ⟨rfl, rfl⟩, rfl⟩

@[simp] theorem accept_lawful (payload : List Byte) (s t : State) : (accept payload t).Lawful s ↔ t.pending = s.pending :=
  ⟨fun h => h.2, fun h => ⟨fun refused => absurd rfl refused, h⟩⟩

@[simp] theorem ite_lawful (p : Prop) [Decidable p] (a b : Answer) (s : State) :
    (if p then a else b).Lawful s ↔ (p → a.Lawful s) ∧ (¬p → b.Lawful s) := by
  by_cases h : p <;> simp [h]

section
variable (s : State)

theorem answerSetLimits_lawful (count : Nat) (body : List Byte) : (answerSetLimits count body s).Lawful s := by
  unfold answerSetLimits
  (repeat' split) <;> simp

theorem answerSetBank_lawful (bank budget : Nat) : (answerSetBank bank budget s).Lawful s := by
  unfold answerSetBank
  (repeat' split) <;> simp

theorem answerDefineTank_lawful (tank : Nat) (f : TankFields) : (answerDefineTank tank f s).Lawful s := by
  unfold answerDefineTank
  (repeat' split) <;> simp

theorem answerLoadStageTable_lawful (tank count : Nat) (body : List Byte) : (answerLoadStageTable tank count body s).Lawful s := by
  unfold answerLoadStageTable
  (repeat' split) <;> simp

theorem answerLoadRatingTable_lawful (tank count : Nat) (body : List Byte) : (answerLoadRatingTable tank count body s).Lawful s := by
  unfold answerLoadRatingTable
  (repeat' split) <;> simp

theorem answerPlaceInService_lawful (tank : Nat) : (answerPlaceInService tank s).Lawful s := by
  unfold answerPlaceInService
  (repeat' split) <;> simp

theorem answerTakeOffline_lawful (tank : Nat) : (answerTakeOffline tank s).Lawful s := by
  unfold answerTakeOffline
  (repeat' split) <;> simp

theorem answerRetireTank_lawful (tank : Nat) : (answerRetireTank tank s).Lawful s := by
  unfold answerRetireTank
  (repeat' split) <;> simp

theorem answerDefineGauge_lawful (gauge depth debounce dryGap : Nat) : (answerDefineGauge gauge depth debounce dryGap s).Lawful s := by
  unfold answerDefineGauge
  (repeat' split) <;> simp

theorem answerRetireGauge_lawful (gauge : Nat) : (answerRetireGauge gauge s).Lawful s := by
  unfold answerRetireGauge
  (repeat' split) <;> simp

theorem answerDefineCatchment_lawful (catchment count : Nat) (body : List Byte) : (answerDefineCatchment catchment count body s).Lawful s := by
  unfold answerDefineCatchment
  (repeat' split) <;> simp

theorem answerRetireCatchment_lawful (catchment : Nat) : (answerRetireCatchment catchment s).Lawful s := by
  unfold answerRetireCatchment
  (repeat' split) <;> simp

theorem answerReportLevel_lawful (tank level age : Nat) : (answerReportLevel tank level age s).Lawful s := by
  unfold answerReportLevel
  (repeat' split) <;> simp

theorem answerSetMode_lawful (tank mode value : Nat) : (answerSetMode tank mode value s).Lawful s := by
  unfold answerSetMode
  (repeat' split) <;> simp

theorem answerSetInhibit_lawful (tank flag : Nat) : (answerSetInhibit tank flag s).Lawful s := by
  unfold answerSetInhibit
  (repeat' split) <;> simp

theorem answerStartAllocation_lawful : (answerStartAllocation s).Lawful s := by
  unfold answerStartAllocation
  (repeat' split) <;> simp

theorem answerStopAllocation_lawful : (answerStopAllocation s).Lawful s := by
  unfold answerStopAllocation
  (repeat' split) <;> simp

theorem answerHold_lawful (duration : Nat) : (answerHold duration s).Lawful s := by
  unfold answerHold
  (repeat' split) <;> simp [startHold]

theorem answerRelease_lawful : (answerRelease s).Lawful s := by
  unfold answerRelease
  (repeat' split) <;> simp

theorem answerResume_lawful : (answerResume s).Lawful s := by
  unfold answerResume
  (repeat' split) <;> simp

theorem answerClearFault_lawful (tank : Nat) : (answerClearFault tank s).Lawful s := by
  unfold answerClearFault
  (repeat' split) <;> simp

theorem answerAckAlert_lawful (catchment : Nat) : (answerAckAlert catchment s).Lawful s := by
  unfold answerAckAlert
  (repeat' split) <;> simp

theorem answerSetForecast_lawful (catchment level duration : Nat) : (answerSetForecast catchment level duration s).Lawful s := by
  unfold answerSetForecast
  (repeat' split) <;> simp

theorem answerResetCounts_lawful (tank : Nat) : (answerResetCounts tank s).Lawful s := by
  unfold answerResetCounts
  (repeat' split) <;> simp

theorem answerReadTank_lawful (tank : Nat) : (answerReadTank tank s).Lawful s := by
  unfold answerReadTank
  (repeat' split) <;> simp

theorem answerReadSpill_lawful (tank : Nat) : (answerReadSpill tank s).Lawful s := by
  unfold answerReadSpill
  (repeat' split) <;> simp

theorem answerReadGauge_lawful (gauge : Nat) : (answerReadGauge gauge s).Lawful s := by
  unfold answerReadGauge
  (repeat' split) <;> simp

theorem answerReadCatchment_lawful (catchment : Nat) : (answerReadCatchment catchment s).Lawful s := by
  unfold answerReadCatchment
  (repeat' split) <;> simp

end

/-- A request is served by its owner, whose answer is lawful. -/
theorem exec_request {c : Instr} (h : c.codeAndPayload.isSome) :
    ∃ owner : State → Answer, (∀ s, exec c s = .next (serve c owner s)) ∧ ∀ s, (owner s).Lawful s := by
  cases c
  case setLimits count body => exact ⟨answerSetLimits count body, fun _ => rfl, fun s => answerSetLimits_lawful s count body⟩
  case setBank bank budget => exact ⟨answerSetBank bank budget, fun _ => rfl, fun s => answerSetBank_lawful s bank budget⟩
  case setNoticeMask tankKinds catchmentKinds allocationKinds => exact ⟨answerSetNoticeMask tankKinds catchmentKinds allocationKinds, fun _ => rfl, fun s => (accept_lawful ..).2 (by simp)⟩
  case defineTank tank f => exact ⟨answerDefineTank tank f, fun _ => rfl, fun s => answerDefineTank_lawful s tank f⟩
  case loadStageTable tank count body => exact ⟨answerLoadStageTable tank count body, fun _ => rfl, fun s => answerLoadStageTable_lawful s tank count body⟩
  case loadRatingTable tank count body => exact ⟨answerLoadRatingTable tank count body, fun _ => rfl, fun s => answerLoadRatingTable_lawful s tank count body⟩
  case placeInService tank => exact ⟨answerPlaceInService tank, fun _ => rfl, fun s => answerPlaceInService_lawful s tank⟩
  case takeOffline tank => exact ⟨answerTakeOffline tank, fun _ => rfl, fun s => answerTakeOffline_lawful s tank⟩
  case retireTank tank => exact ⟨answerRetireTank tank, fun _ => rfl, fun s => answerRetireTank_lawful s tank⟩
  case defineGauge gauge depth debounce dryGap => exact ⟨answerDefineGauge gauge depth debounce dryGap, fun _ => rfl, fun s => answerDefineGauge_lawful s gauge depth debounce dryGap⟩
  case retireGauge gauge => exact ⟨answerRetireGauge gauge, fun _ => rfl, fun s => answerRetireGauge_lawful s gauge⟩
  case defineCatchment catchment count body => exact ⟨answerDefineCatchment catchment count body, fun _ => rfl, fun s => answerDefineCatchment_lawful s catchment count body⟩
  case retireCatchment catchment => exact ⟨answerRetireCatchment catchment, fun _ => rfl, fun s => answerRetireCatchment_lawful s catchment⟩
  case reportLevel tank level age => exact ⟨answerReportLevel tank level age, fun _ => rfl, fun s => answerReportLevel_lawful s tank level age⟩
  case setMode tank mode value => exact ⟨answerSetMode tank mode value, fun _ => rfl, fun s => answerSetMode_lawful s tank mode value⟩
  case setInhibit tank flag => exact ⟨answerSetInhibit tank flag, fun _ => rfl, fun s => answerSetInhibit_lawful s tank flag⟩
  case startAllocation => exact ⟨answerStartAllocation, fun _ => rfl, fun s => answerStartAllocation_lawful s⟩
  case stopAllocation => exact ⟨answerStopAllocation, fun _ => rfl, fun s => answerStopAllocation_lawful s⟩
  case hold duration => exact ⟨answerHold duration, fun _ => rfl, fun s => answerHold_lawful s duration⟩
  case release => exact ⟨answerRelease, fun _ => rfl, fun s => answerRelease_lawful s⟩
  case resume => exact ⟨answerResume, fun _ => rfl, fun s => answerResume_lawful s⟩
  case clearFault tank => exact ⟨answerClearFault tank, fun _ => rfl, fun s => answerClearFault_lawful s tank⟩
  case ackAlert catchment => exact ⟨answerAckAlert catchment, fun _ => rfl, fun s => answerAckAlert_lawful s catchment⟩
  case setForecast catchment level duration => exact ⟨answerSetForecast catchment level duration, fun _ => rfl, fun s => answerSetForecast_lawful s catchment level duration⟩
  case resetCounts tank => exact ⟨answerResetCounts tank, fun _ => rfl, fun s => answerResetCounts_lawful s tank⟩
  case resetCountsAll => exact ⟨answerResetCountsAll, fun _ => rfl, fun s => (accept_lawful ..).2 (by simp)⟩
  case clearState => exact ⟨answerClearState, fun _ => rfl, fun s => (accept_lawful ..).2 (by simp)⟩
  case readTank tank => exact ⟨answerReadTank tank, fun _ => rfl, fun s => answerReadTank_lawful s tank⟩
  case readOrders => exact ⟨answerReadOrders, fun _ => rfl, fun s => (accept_lawful ..).2 (by simp)⟩
  case readSpill tank => exact ⟨answerReadSpill tank, fun _ => rfl, fun s => answerReadSpill_lawful s tank⟩
  case readGauge gauge => exact ⟨answerReadGauge gauge, fun _ => rfl, fun s => answerReadGauge_lawful s gauge⟩
  case readCatchment catchment => exact ⟨answerReadCatchment catchment, fun _ => rfl, fun s => answerReadCatchment_lawful s catchment⟩
  case readAllocation => exact ⟨answerReadAllocation, fun _ => rfl, fun s => (accept_lawful ..).2 (by simp)⟩
  case readNotices => exact ⟨answerReadNotices, fun _ => rfl, fun s => (accept_lawful ..).2 (by simp)⟩
  case readTime => exact ⟨answerReadTime, fun _ => rfl, fun s => (accept_lawful ..).2 (by simp)⟩
  case identify => exact ⟨answerIdentify, fun _ => rfl, fun s => (accept_lawful ..).2 (by simp)⟩
  all_goals simp [Instr.codeAndPayload] at h

/-- Settles O6: a request in hand has its owner's answer stored under its tag. -/
theorem requestsAnswerInHand : Obligations.RequestsAnswerInHand := by
  intro c s request
  obtain ⟨owner, answers, lawful⟩ := exec_request request
  refine ⟨fun tag taken => ?_, fun absent => (answers s).trans (congrArg Host.Outcome.next (serve_not_taken absent))⟩
  refine ⟨_, _, (answers s).trans (congrArg Host.Outcome.next (serve_taken taken)), rfl, rfl, fun refused => ?_⟩
  obtain ⟨payload, state⟩ := (lawful s).1 refused
  exact ⟨payload, by rw [Answer.stored, payload, state]⟩

/-! ### Every command -/

theorem serve_pending {c : Instr} {owner : State → Answer} {s : State} (h : (owner s).state.pending = s.pending) :
    (serve c owner s).pending = s.pending := by
  unfold serve
  (repeat' split) <;> simp [h]

theorem whileReleased_pending {event : State → State} {s : State} (h : (event s).pending = s.pending) :
    (whileReleased event s).pending = s.pending := by
  rw [whileReleased]
  split
  · rfl
  · exact h

theorem expiryEvent_pending (e : Expiry) (s : State) : (expiryEvent e s).pending = s.pending := by
  cases e <;> simp [expiryEvent]

theorem tickEvent_pending (s : State) : (tickEvent s).pending = s.pending := by
  have taken : ∀ (order : List Expiry) (s : State), (order.foldl (fun t e => expiryEvent e t) s).pending = s.pending := by
    intro order
    induction order with
    | nil => exact fun _ => rfl
    | cons e order ih => exact fun s => (ih _).trans (expiryEvent_pending e s)
  exact taken s.expiryOrder s

theorem transactionEvent_pending (b : Beginning) (content : List Byte) (s : State) :
    (transactionEvent b content s).pending = s.pending := by
  unfold transactionEvent frameEvent fetchEvent pollEvent
  (repeat' split) <;> simp

theorem endTransaction_pending (content : List Byte) (s : State) : (endTransaction content s).pending = s.pending := by
  unfold endTransaction
  (repeat' split) <;> simp [transactionEvent_pending]

theorem transactionMoment_pending {α : Type} (content : α → List Byte) (moment : Moment α) (s : State) :
    (transactionMoment content moment s).pending = s.pending := by
  cases moment with
  | begins => exact beginTransaction_pending
  | ends c => exact endTransaction_pending _ s

/-- Settles O2: a request by its owner, every other command by its event. -/
theorem everyCommandAnswers : Obligations.EveryCommandAnswers := by
  intro c s
  by_cases request : c.codeAndPayload.isSome
  · obtain ⟨owner, answers, lawful⟩ := exec_request request
    exact ⟨_, answers s, serve_pending (lawful s).2⟩
  cases c
  case powerOn => exact ⟨_, rfl, rfl⟩
  case resetNAsserted => exact ⟨_, rfl, rfl⟩
  case resetNReleased => exact ⟨_, rfl, by split <;> simp⟩
  case decisecondTick => exact ⟨_, rfl, whileReleased_pending (tickEvent_pending s)⟩
  case statusPoll => exact ⟨_, rfl, endTransaction_pending _ s⟩
  case fetch moment => exact ⟨_, rfl, transactionMoment_pending _ moment s⟩
  case requestFrame moment => exact ⟨_, rfl, transactionMoment_pending _ moment s⟩
  case tipEdge k => exact ⟨_, rfl, whileReleased_pending (tipEvent_pending k)⟩
  case zinhChange z level => exact ⟨_, rfl, by split; exacts [rfl, whileReleased_pending (by simp)]⟩
  case capSelChange line level => exact ⟨_, rfl, by split; exacts [rfl, whileReleased_pending (by simp)]⟩
  case intakeHighChange level => exact ⟨_, rfl, by split; exacts [rfl, whileReleased_pending (by simp)]⟩
  case staleExpiry i => exact ⟨_, rfl, whileReleased_pending (expiryEvent_pending (.stale i) s)⟩
  case dryGapExpiry k => exact ⟨_, rfl, whileReleased_pending (expiryEvent_pending (.dryGap k) s)⟩
  case evaluationExpiry => exact ⟨_, rfl, whileReleased_pending (expiryEvent_pending .evaluation s)⟩
  case floorExpiry k => exact ⟨_, rfl, whileReleased_pending (expiryEvent_pending (.floor k) s)⟩
  case settleExpiry => exact ⟨_, rfl, whileReleased_pending (expiryEvent_pending .settle s)⟩
  case allocationRun => exact ⟨_, rfl, whileReleased_pending (expiryEvent_pending .period s)⟩
  case filterExpiry => exact ⟨_, rfl, whileReleased_pending (expiryEvent_pending .filter s)⟩
  case blankExpiry => exact ⟨_, rfl, whileReleased_pending (expiryEvent_pending .blank s)⟩
  case offTimerExpiry => exact ⟨_, rfl, whileReleased_pending (expiryEvent_pending .off s)⟩
  case holdEndExpiry => exact ⟨_, rfl, whileReleased_pending (expiryEvent_pending .holdEnd s)⟩
  case frameRefusedByPort => exact ⟨_, rfl, whileReleased_pending refusedFrameEvent_pending⟩
  all_goals exact absurd rfl request

/-! ### The part in reset (R76, R192) -/

theorem serve_asserted {c : Instr} {owner : State → Answer} {s : State} (h : s.resetAsserted = true) : serve c owner s = s :=
  if_pos h

theorem beginTransaction_transaction (s : State) : beginTransaction s = { s with transaction := (beginTransaction s).transaction } := by
  unfold beginTransaction
  split <;> rfl

theorem endTransaction_asserted (content : List Byte) {s : State} (h : s.resetAsserted = true) :
    endTransaction content s = { s with transaction := .absent } := by
  rw [endTransaction]
  split
  · exact if_pos h
  · rfl

/-- What a command may change of a part in reset: the line that it is, and the transaction that it is. -/
def ChangesLinesOnly (c : Instr) (s t : State) : Prop :=
  t = { s with pins := t.pins, transaction := t.transaction } ∧
    ((∀ z a, c ≠ .zinhChange z a) → (∀ l a, c ≠ .capSelChange l a) → (∀ a, c ≠ .intakeHighChange a) → t.pins = s.pins) ∧
    (c ≠ .statusPoll → (∀ m, c ≠ .fetch m) → (∀ m, c ≠ .requestFrame m) → t.transaction = s.transaction)

theorem ChangesLinesOnly.of_eq {c : Instr} {s t : State} (h : t = s) : ChangesLinesOnly c s t := by
  rw [h]
  exact ⟨rfl, fun _ _ _ => rfl, fun _ _ _ => rfl⟩

theorem transactionMoment_asserted {α : Type} (content : α → List Byte) (moment : Moment α) {s : State}
    (h : s.resetAsserted = true) : ∃ x, transactionMoment content moment s = { s with transaction := x } := by
  cases moment with
  | begins => exact ⟨_, beginTransaction_transaction s⟩
  | ends c => exact ⟨_, endTransaction_asserted _ h⟩

/-- Settles O9: no request is taken and no event has its effect. -/
theorem assertedResetDisregardsEvents : Obligations.AssertedResetDisregardsEvents := by
  intro c s reset notPower notReset notRelease
  change ∃ t, exec c s = .next t ∧ ChangesLinesOnly c s t
  by_cases request : c.codeAndPayload.isSome
  · obtain ⟨owner, answers, -⟩ := exec_request request
    exact ⟨_, answers s, .of_eq (serve_asserted reset)⟩
  have idle : ∀ event : State → State, ChangesLinesOnly c s (whileReleased event s) := fun event =>
    .of_eq (whileReleased_asserted reset)
  cases c
  case powerOn => exact absurd rfl notPower
  case resetNAsserted => exact absurd rfl notReset
  case resetNReleased => exact absurd rfl notRelease
  case statusPoll =>
    exact ⟨_, congrArg Host.Outcome.next (endTransaction_asserted _ reset), rfl, fun _ _ _ => rfl, fun other => absurd rfl other⟩
  case fetch moment =>
    obtain ⟨x, hx⟩ := transactionMoment_asserted (fun clocked => List.replicate clocked 0) moment reset
    exact ⟨_, congrArg Host.Outcome.next hx, rfl, fun _ _ _ => rfl, fun _ other => absurd rfl (other moment)⟩
  case requestFrame moment =>
    obtain ⟨x, hx⟩ := transactionMoment_asserted id moment reset
    exact ⟨_, congrArg Host.Outcome.next hx, rfl, fun _ _ _ => rfl, fun _ _ other => absurd rfl (other moment)⟩
  case zinhChange z level =>
    refine ⟨_, rfl, ?_⟩
    split
    · exact .of_eq rfl
    · rw [whileReleased_asserted (by exact reset)]
      exact ⟨rfl, fun other => absurd rfl (other z level), fun _ _ _ => rfl⟩
  case capSelChange line level =>
    refine ⟨_, rfl, ?_⟩
    split
    · exact .of_eq rfl
    · rw [whileReleased_asserted (by exact reset)]
      exact ⟨rfl, fun _ other => absurd rfl (other line level), fun _ _ _ => rfl⟩
  case intakeHighChange level =>
    refine ⟨_, rfl, ?_⟩
    split
    · exact .of_eq rfl
    · rw [whileReleased_asserted (by exact reset)]
      exact ⟨rfl, fun _ _ other => absurd rfl (other level), fun _ _ _ => rfl⟩
  case decisecondTick | tipEdge | staleExpiry | dryGapExpiry | evaluationExpiry | floorExpiry | settleExpiry | allocationRun
    | filterExpiry | blankExpiry | offTimerExpiry | holdEndExpiry | frameRefusedByPort => exact ⟨_, rfl, idle _⟩
  all_goals exact absurd rfl request

end Sys2Proof.Machine
end

section
/-! PROOFS. Frames: the request that a payload spells, the lengths that a code admits, and the port's judgement (R181). -/

namespace Sys2Proof.Machine

/-! ### A payload read back -/

theorem joinFields_length {widths numbers : List Nat} (h : widths.length = numbers.length) :
    (joinFields widths numbers).length = widths.sum := by
  rw [joinFields_eq_laidOut, laidOut_length, List.map_fst_zip h.le]

/-- A request's payload spells the request, its code is one of the 35, and its length fits the length byte (section 10.6). -/
def Spelled (i : Instr) (p : Nat × List Byte) : Prop :=
  parsePayload p.1 p.2 = some i ∧ (1 ≤ p.1 ∧ p.1 ≤ 35) ∧ p.2.length < 256

section
variable {i : Instr} {code : Nat} {widths numbers : List Nat}

/-- A payload of fields that fit. -/
theorem spelled_fields (coded : 1 ≤ code ∧ code ≤ 35) (same : widths.length = numbers.length) (small : widths.sum < 256)
    (fits : ∀ p ∈ widths.zip numbers, p.2 < 256 ^ p.1)
    (parse : ∀ payload, fieldsOf widths payload = some numbers → parsePayload code payload = some i) :
    Spelled i (code, joinFields widths numbers) :=
  ⟨parse _ (fieldsOf_joinFields widths numbers same fits), coded, (joinFields_length same).symm ▸ small⟩

/-- A payload of fields that fit, and entries behind them. -/
theorem spelled_counted (entries : List Byte) (coded : 1 ≤ code ∧ code ≤ 35) (same : widths.length = numbers.length)
    (small : entries.length + widths.sum < 256) (fits : ∀ p ∈ widths.zip numbers, p.2 < 256 ^ p.1)
    (parse : ∀ payload, splitFields widths payload = some (numbers, entries) → parsePayload code payload = some i) :
    Spelled i (code, joinFields widths numbers ++ entries) := by
  refine ⟨parse _ (splitFields_joinFields widths numbers entries same fits), coded, ?_⟩
  rw [List.length_append, joinFields_length same]
  omega

/-- A payload of one index byte. -/
theorem spelled_index (make : Nat → Instr) {n : Nat} (fits : n < 256) (coded : 1 ≤ code ∧ code ≤ 35)
    (parse : ∀ payload, parsePayload code payload = indexRequest make payload) : Spelled (make n) (code, bytesOf 1 n) := by
  have one : joinFields [1] [n] = bytesOf 1 n := by simp [joinFields]
  rw [← one]
  exact spelled_fields coded rfl (by decide) (by simpa using fits) fun payload read => by simp only [parse, indexRequest, read]

/-- An empty payload. -/
theorem spelled_bare (coded : 1 ≤ code ∧ code ≤ 35) (parse : parsePayload code [] = some i) : Spelled i (code, []) :=
  ⟨parse, coded, by simp⟩

end

/-- The fields of a DEFINE_TANK that can be sent fit their widths. -/
theorem tankFields_fit {tank : Nat} {f : TankFields} (wf : (Instr.defineTank tank f).wellFormed = true) :
    ∀ p ∈ tankWidths.zip (tank :: f.toList), p.2 < 256 ^ p.1 := by
  simp only [Instr.wellFormed, TankFields.wellFormed, List.all_cons, List.all_nil, Bool.and_true, Bool.and_eq_true,
    decide_eq_true_eq] at wf
  simp only [tankWidths, TankFields.toList, List.zip_cons_cons, List.zip_nil_right, List.forall_mem_cons, List.not_mem_nil,
    IsEmpty.forall_iff, implies_true, and_true]
  omega

/-- What a well-formed request's code and payload spell. -/
theorem codeAndPayload_spelled (i : Instr) (wf : i.wellFormed = true) : (i.codeAndPayload).elim True (Spelled i) := by
  cases i
  case setLimits n entries =>
    obtain ⟨count, length⟩ : n < 256 ∧ entries.length + 1 < 256 := by simpa [Instr.wellFormed] using wf
    exact spelled_counted (widths := [1]) (numbers := [n]) entries (by decide) rfl length (by simpa using count)
      fun payload read => by simp only [parsePayload, read]
  case setBank bank budget =>
    have fits : bank < 256 ∧ budget < 65536 := by simpa [Instr.wellFormed, and_assoc] using wf
    exact spelled_fields (widths := [1, 2]) (numbers := [bank, budget]) (by decide) rfl (by decide) (by simpa using fits)
      fun payload read => by simp only [parsePayload, read]
  case setNoticeMask t c a =>
    have fits : t < 256 ∧ c < 256 ∧ a < 256 := by simpa [Instr.wellFormed, and_assoc] using wf
    exact spelled_fields (widths := [1, 1, 1]) (numbers := [t, c, a]) (by decide) rfl (by decide) (by simpa using fits)
      fun payload read => by simp only [parsePayload, read]
  case defineTank tank f =>
    exact spelled_fields (widths := tankWidths) (numbers := tank :: f.toList) (by decide) rfl (by decide) (tankFields_fit wf)
      fun payload read => by simp only [parsePayload, read, TankFields.toList]
  case loadStageTable tank n points =>
    obtain ⟨index, count, length⟩ : tank < 256 ∧ n < 256 ∧ points.length + 2 < 256 := by simpa [Instr.wellFormed, and_assoc] using wf
    exact spelled_counted (widths := [1, 1]) (numbers := [tank, n]) points (by decide) rfl length (by simp [index, count])
      fun payload read => by simp only [parsePayload, read]
  case loadRatingTable tank n points =>
    obtain ⟨index, count, length⟩ : tank < 256 ∧ n < 256 ∧ points.length + 2 < 256 := by simpa [Instr.wellFormed, and_assoc] using wf
    exact spelled_counted (widths := [1, 1]) (numbers := [tank, n]) points (by decide) rfl length (by simp [index, count])
      fun payload read => by simp only [parsePayload, read]
  case defineCatchment c n body =>
    obtain ⟨index, count, length⟩ : c < 256 ∧ n < 256 ∧ body.length + 2 < 256 := by simpa [Instr.wellFormed, and_assoc] using wf
    exact spelled_counted (widths := [1, 1]) (numbers := [c, n]) body (by decide) rfl length (by simp [index, count])
      fun payload read => by simp only [parsePayload, read]
  case defineGauge g depth debounce gap =>
    have fits : g < 256 ∧ depth < 256 ∧ debounce < 256 ∧ gap < 4294967296 := by simpa [Instr.wellFormed, and_assoc] using wf
    exact spelled_fields (widths := [1, 1, 1, 4]) (numbers := [g, depth, debounce, gap]) (by decide) rfl (by decide) (by simpa using fits)
      fun payload read => by simp only [parsePayload, read]
  case reportLevel tank level age =>
    have fits : tank < 256 ∧ level < 65536 ∧ age < 65536 := by simpa [Instr.wellFormed, and_assoc] using wf
    exact spelled_fields (widths := [1, 2, 2]) (numbers := [tank, level, age]) (by decide) rfl (by decide) (by simpa using fits)
      fun payload read => by simp only [parsePayload, read]
  case setMode tank mode value =>
    have fits : tank < 256 ∧ mode < 256 ∧ value < 65536 := by simpa [Instr.wellFormed, and_assoc] using wf
    exact spelled_fields (widths := [1, 1, 2]) (numbers := [tank, mode, value]) (by decide) rfl (by decide) (by simpa using fits)
      fun payload read => by simp only [parsePayload, read]
  case setInhibit tank flag =>
    have fits : tank < 256 ∧ flag < 256 := by simpa [Instr.wellFormed, and_assoc] using wf
    exact spelled_fields (widths := [1, 1]) (numbers := [tank, flag]) (by decide) rfl (by decide) (by simpa using fits)
      fun payload read => by simp only [parsePayload, read]
  case setForecast c level duration =>
    have fits : c < 256 ∧ level < 256 ∧ duration < 4294967296 := by simpa [Instr.wellFormed, and_assoc] using wf
    exact spelled_fields (widths := [1, 1, 4]) (numbers := [c, level, duration]) (by decide) rfl (by decide) (by simpa using fits)
      fun payload read => by simp only [parsePayload, read]
  case hold duration =>
    have fits : duration < 4294967296 := by simpa [Instr.wellFormed] using wf
    have one : joinFields [4] [duration] = bytesOf 4 duration := by simp [joinFields]
    change Spelled (.hold duration) (19, bytesOf 4 duration)
    rw [← one]
    exact spelled_fields (by decide) rfl (by decide) (by simpa using fits) fun payload read => by simp only [parsePayload, read]
  case resetCounts tank =>
    have fits : tank < 255 := by simpa [Instr.wellFormed] using wf
    have one : (if tank = 255 then Instr.resetCountsAll else .resetCounts tank) = .resetCounts tank := if_neg fits.ne
    have spelled := spelled_index (code := 25) (fun i => if i = 255 then .resetCountsAll else .resetCounts i)
      (fits.trans (by decide)) (by decide) fun _ => rfl
    rwa [one] at spelled
  case resetCountsAll =>
    exact spelled_index (fun i => if i = 255 then .resetCountsAll else .resetCounts i) (by decide) (by decide) fun _ => rfl
  case placeInService tank => exact spelled_index .placeInService (by simpa [Instr.wellFormed] using wf) (by decide) fun _ => rfl
  case takeOffline tank => exact spelled_index .takeOffline (by simpa [Instr.wellFormed] using wf) (by decide) fun _ => rfl
  case retireTank tank => exact spelled_index .retireTank (by simpa [Instr.wellFormed] using wf) (by decide) fun _ => rfl
  case retireGauge gauge => exact spelled_index .retireGauge (by simpa [Instr.wellFormed] using wf) (by decide) fun _ => rfl
  case retireCatchment catchment => exact spelled_index .retireCatchment (by simpa [Instr.wellFormed] using wf) (by decide) fun _ => rfl
  case clearFault tank => exact spelled_index .clearFault (by simpa [Instr.wellFormed] using wf) (by decide) fun _ => rfl
  case ackAlert catchment => exact spelled_index .ackAlert (by simpa [Instr.wellFormed] using wf) (by decide) fun _ => rfl
  case readTank tank => exact spelled_index .readTank (by simpa [Instr.wellFormed] using wf) (by decide) fun _ => rfl
  case readSpill tank => exact spelled_index .readSpill (by simpa [Instr.wellFormed] using wf) (by decide) fun _ => rfl
  case readGauge gauge => exact spelled_index .readGauge (by simpa [Instr.wellFormed] using wf) (by decide) fun _ => rfl
  case readCatchment catchment => exact spelled_index .readCatchment (by simpa [Instr.wellFormed] using wf) (by decide) fun _ => rfl
  case startAllocation | stopAllocation | release | resume | clearState | readOrders | readAllocation | readNotices | readTime
    | identify => exact spelled_bare (by decide) rfl
  all_goals trivial

section
variable {code tag length : Byte} {rest : List Byte}

/-- A whole frame of a good code whose payload spells a request. -/
theorem judgeFrame_request {i : Instr} (whole : length.toNat ≤ rest.length) (coded : 1 ≤ code.toNat ∧ code.toNat ≤ 35)
    (parse : parsePayload code.toNat (rest.take length.toNat) = some i) :
    judgeFrame (code :: tag :: length :: rest) = .request tag i := by
  refine (if_neg (by omega)).trans ((if_neg (by omega)).trans ?_)
  rw [parse]

/-- A whole frame of a good code whose payload has not the length of its request. -/
theorem judgeFrame_badLength (whole : length.toNat ≤ rest.length) (coded : 1 ≤ code.toNat ∧ code.toNat ≤ 35)
    (parse : parsePayload code.toNat (rest.take length.toNat) = none) :
    judgeFrame (code :: tag :: length :: rest) = .refused tag .badLength := by
  refine (if_neg (by omega)).trans ((if_neg (by omega)).trans ?_)
  rw [parse]

end

theorem judgeFrame_spelled {i : Instr} {p : Nat × List Byte} (tag : Byte) (extra : List Byte) (h : Spelled i p) :
    judgeFrame ((BitVec.ofNat 8 p.1 :: tag :: BitVec.ofNat 8 p.2.length :: p.2) ++ extra) = .request tag i := by
  obtain ⟨parse, ⟨low, high⟩, length⟩ := h
  have code : (BitVec.ofNat 8 p.1).toNat = p.1 := by simp; omega
  have size : (BitVec.ofNat 8 p.2.length).toNat = p.2.length := by simp; omega
  have payload : (p.2 ++ extra).take p.2.length = p.2 := List.take_left
  exact judgeFrame_request (by simp [size]) (by omega) (by rw [code, size]; exact (congrArg (parsePayload p.1) payload).trans parse)

/-- Settles O3: the rows of requests, and each read back from its own frame. -/
theorem frameSpellsRequest : Obligations.FrameSpellsRequest := by
  refine ⟨fun i => by cases i <;> rfl, fun i tag => rfl, fun i tag frame extra wf spells => ?_⟩
  have spelled := codeAndPayload_spelled i wf
  obtain ⟨p, hp, rfl⟩ := Option.map_eq_some_iff.1 spells
  rw [hp] at spelled
  exact judgeFrame_spelled tag extra spelled

/-! ### The lengths that a code admits (section 10.6) -/

/-- Fields are read from exactly as many bytes as they take, one number for each. -/
theorem fieldsOf_cases (widths : List Nat) (payload : List Byte) :
    (payload.length = widths.sum ∧ ∃ numbers, numbers.length = widths.length ∧ fieldsOf widths payload = some numbers) ∨
      (payload.length ≠ widths.sum ∧ fieldsOf widths payload = none) := by
  by_cases h : payload.length = widths.sum
  · obtain ⟨numbers, same, read⟩ := (splitFields_isSome widths payload).1 h.ge
    rw [← h, List.drop_length] at read
    exact .inl ⟨h, numbers, same, by simp only [fieldsOf, read]⟩
  · exact .inr ⟨h, fieldsOf_eq_none h⟩

/-- The codes whose payload is a row of fields, with the widths (section 10.6). -/
def fieldRows : List (Nat × List Nat) :=
  [(2, [1, 2]), (3, [1, 1, 1]), (4, tankWidths), (10, [1, 1, 1, 4]), (14, [1, 2, 2]), (15, [1, 1, 2]), (16, [1, 1]), (19, [4]),
    (24, [1, 1, 4])]

theorem isSome_parse_fields {widths : List Nat} {code : Nat} (row : (code, widths) ∈ fieldRows) (payload : List Byte) :
    (parsePayload code payload).isSome ↔ payload.length = widths.sum := by
  rcases fieldsOf_cases widths payload with ⟨whole, numbers, same, read⟩ | ⟨other, unread⟩
  · simp only [whole, iff_true]
    simp only [fieldRows, List.mem_cons, Prod.mk.injEq, List.not_mem_nil, or_false] at row
    rcases row with ⟨rfl, rfl⟩ | ⟨rfl, rfl⟩ | ⟨rfl, rfl⟩ | ⟨rfl, rfl⟩ | ⟨rfl, rfl⟩ | ⟨rfl, rfl⟩ | ⟨rfl, rfl⟩ | ⟨rfl, rfl⟩ | ⟨rfl, rfl⟩
    · obtain ⟨a, b, rfl⟩ := List.length_eq_two.1 same
      simp only [parsePayload, read, Option.isSome_some]
    · obtain ⟨a, b, c, rfl⟩ := List.length_eq_three.1 same
      simp only [parsePayload, read, Option.isSome_some]
    · change numbers.length = 17 at same
      match numbers, same with
      | [_, _, _, _, _, _, _, _, _, _, _, _, _, _, _, _, _], _ => simp only [parsePayload, read, Option.isSome_some]
    · match numbers, same with
      | [a, b, c, d], _ => simp only [parsePayload, read, Option.isSome_some]
    · obtain ⟨a, b, c, rfl⟩ := List.length_eq_three.1 same
      simp only [parsePayload, read, Option.isSome_some]
    · obtain ⟨a, b, c, rfl⟩ := List.length_eq_three.1 same
      simp only [parsePayload, read, Option.isSome_some]
    · obtain ⟨a, b, rfl⟩ := List.length_eq_two.1 same
      simp only [parsePayload, read, Option.isSome_some]
    · obtain ⟨a, rfl⟩ := List.length_eq_one_iff.1 same
      simp only [parsePayload, read, Option.isSome_some]
    · obtain ⟨a, b, c, rfl⟩ := List.length_eq_three.1 same
      simp only [parsePayload, read, Option.isSome_some]
  · simp only [other, iff_false]
    simp only [fieldRows, List.mem_cons, Prod.mk.injEq, List.not_mem_nil, or_false] at row
    rcases row with ⟨rfl, rfl⟩ | ⟨rfl, rfl⟩ | ⟨rfl, rfl⟩ | ⟨rfl, rfl⟩ | ⟨rfl, rfl⟩ | ⟨rfl, rfl⟩ | ⟨rfl, rfl⟩ | ⟨rfl, rfl⟩ | ⟨rfl, rfl⟩ <;>
      simp [parsePayload, unread]

theorem isSome_parse_counted {code : Nat} (h : code ∈ [5, 6, 12]) (payload : List Byte) :
    (parsePayload code payload).isSome ↔ 2 ≤ payload.length := by
  obtain ⟨enough, short⟩ := splitFields_isSome [1, 1] payload
  simp only [List.mem_cons, List.not_mem_nil, or_false] at h
  by_cases whole : 2 ≤ payload.length
  · obtain ⟨numbers, same, read⟩ := enough whole
    obtain ⟨a, b, rfl⟩ := List.length_eq_two.1 same
    rcases h with rfl | rfl | rfl <;> simp [parsePayload, read, whole]
  · have unread := short (not_le.1 whole)
    rcases h with rfl | rfl | rfl <;> simp [parsePayload, unread, whole]

theorem isSome_parse_settings (payload : List Byte) : (parsePayload 1 payload).isSome ↔ 1 ≤ payload.length := by
  obtain ⟨enough, short⟩ := splitFields_isSome [1] payload
  by_cases whole : 1 ≤ payload.length
  · obtain ⟨numbers, same, read⟩ := enough whole
    obtain ⟨a, rfl⟩ := List.length_eq_one_iff.1 same
    simp [parsePayload, read, whole]
  · have unread := short (not_le.1 whole)
    simp [parsePayload, unread, whole]

theorem isSome_parse_index {code : Nat} (h : code ∈ [7, 8, 9, 11, 13, 22, 23, 25, 27, 29, 30, 31]) (payload : List Byte) :
    (parsePayload code payload).isSome ↔ payload.length = 1 := by
  obtain ⟨make, parse⟩ : ∃ make, parsePayload code payload = indexRequest make payload := by
    simp only [List.mem_cons, List.not_mem_nil, or_false] at h
    rcases h with rfl | rfl | rfl | rfl | rfl | rfl | rfl | rfl | rfl | rfl | rfl | rfl <;> exact ⟨_, rfl⟩
  rw [parse]
  rcases fieldsOf_cases [1] payload with ⟨whole, numbers, same, read⟩ | ⟨other, unread⟩
  · obtain ⟨a, rfl⟩ := List.length_eq_one_iff.1 same
    simpa [indexRequest, read] using whole
  · simpa [indexRequest, unread] using other

theorem isSome_parse_bare {code : Nat} (h : code ∈ [17, 18, 20, 21, 26, 28, 32, 33, 34, 35]) (payload : List Byte) :
    (parsePayload code payload).isSome ↔ payload.length = 0 := by
  obtain ⟨i, parse⟩ : ∃ i, parsePayload code payload = bareRequest i payload := by
    simp only [List.mem_cons, List.not_mem_nil, or_false] at h
    rcases h with rfl | rfl | rfl | rfl | rfl | rfl | rfl | rfl | rfl | rfl <;> exact ⟨_, rfl⟩
  rw [parse, bareRequest]
  split <;> simp_all

/-- A payload spells a request exactly where its length is one that the code admits (R181). -/
theorem isSome_parse_iff {code : Nat} (coded : 1 ≤ code ∧ code ≤ 35) (payload : List Byte) :
    (parsePayload code payload).isSome ↔ admitsLength code payload.length := by
  have groups : code = 1 ∨ code ∈ [5, 6, 12] ∨ code ∈ [7, 8, 9, 11, 13, 22, 23, 25, 27, 29, 30, 31] ∨
      code ∈ [17, 18, 20, 21, 26, 28, 32, 33, 34, 35] ∨ ∃ widths, (code, widths) ∈ fieldRows := by
    simp only [fieldRows, List.mem_cons, Prod.mk.injEq, List.not_mem_nil, or_false, exists_or, exists_eq_right]
    omega
  rcases groups with rfl | h | h | h | ⟨widths, row⟩
  · rw [isSome_parse_settings, admitsLength]
    simp
  · rw [isSome_parse_counted h, admitsLength]
    simp only [List.mem_cons, List.not_mem_nil, or_false] at h
    rcases h with rfl | rfl | rfl <;> simp
  · rw [isSome_parse_index h, admitsLength]
    simp only [List.mem_cons, List.not_mem_nil, or_false] at h
    rcases h with rfl | rfl | rfl | rfl | rfl | rfl | rfl | rfl | rfl | rfl | rfl | rfl <;> simp
  · rw [isSome_parse_bare h, admitsLength]
    simp only [List.mem_cons, List.not_mem_nil, or_false] at h
    rcases h with rfl | rfl | rfl | rfl | rfl | rfl | rfl | rfl | rfl | rfl <;> simp
  · rw [isSome_parse_fields row, admitsLength]
    simp only [fieldRows, List.mem_cons, Prod.mk.injEq, List.not_mem_nil, or_false] at row
    rcases row with ⟨rfl, rfl⟩ | ⟨rfl, rfl⟩ | ⟨rfl, rfl⟩ | ⟨rfl, rfl⟩ | ⟨rfl, rfl⟩ | ⟨rfl, rfl⟩ | ⟨rfl, rfl⟩ | ⟨rfl, rfl⟩ | ⟨rfl, rfl⟩ <;>
      simp [tankWidths]

/-- Settles O4: a frame by its first bytes, its length and its code. -/
theorem portJudgesFrames : Obligations.PortJudgesFrames := by
  refine ⟨fun code => rfl, fun code tag => rfl, fun code tag length rest short => if_pos short,
    fun code tag length rest whole => ⟨fun unknown => ?_, fun some known => ?_⟩⟩
  · have outside : code.toNat < 1 ∨ 35 < code.toNat := unknown.imp_left fun zero => by simp [zero]
    exact (if_neg (by omega)).trans (if_pos outside)
  · have coded : 1 ≤ code.toNat ∧ code.toNat ≤ 35 := ⟨Nat.pos_of_ne_zero fun zero => some (BitVec.eq_of_toNat_eq zero), known⟩
    have admits := isSome_parse_iff coded (rest.take length.toNat)
    rw [List.length_take, Nat.min_eq_left whole] at admits
    refine ⟨fun wrong => ?_, fun right => ?_⟩
    · exact judgeFrame_badLength whole coded (Option.not_isSome_iff_eq_none.1 (mt admits.1 wrong))
    · obtain ⟨i, parse⟩ := Option.isSome_iff_exists.1 (admits.2 right)
      exact ⟨i, judgeFrame_request whole coded parse, parse⟩

end Sys2Proof.Machine
end

section
/-! PROOFS. Transactions: what a beginning holds, and what a poll, a FETCH and a request frame do at their end (R180 to R183). -/

namespace Sys2Proof.Machine

theorem Beginning.statusByte_toNat (b : Beginning) : b.statusByte.toNat =
    (match b.port with | .idle => 0 | .busy _ => 1 | .reply _ => 2) + (if b.overrun then 4 else 0) + (if b.attn then 8 else 0) := by
  have port : b.port.code = match b.port with | .idle => 0 | .busy _ => 1 | .reply _ => 2 := by
    cases b.port <;> rfl
  have few : b.port.code ≤ 2 := by
    cases b.port <;> simp [Port.code]
  have flags : 4 * bitsOf [b.overrun, b.attn] = (if b.overrun then 4 else 0) + (if b.attn then 8 else 0) := by
    simp [bitsOf, Nat.mul_add]
  rw [← port, Nat.add_assoc, ← flags, statusByte, BitVec.toNat_ofNat, flags]
  split_ifs <;> omega

/-! ### Beginnings -/

section
variable {s : State}

theorem beginTransaction_released (idle : s.transaction = .absent) (released : s.resetAsserted = false) :
    beginTransaction s = { s with transaction := .begun { port := s.port, overrun := s.overrun, attn := s.notices.attn } } := by
  simp [beginTransaction, idle, released, State.beginning]

theorem beginTransaction_asserted (idle : s.transaction = .absent) (asserted : s.resetAsserted = true) :
    beginTransaction s = { s with transaction := .disregarded } := by
  simp [beginTransaction, idle, asserted]

theorem beginTransaction_within (within : s.transaction ≠ .absent) : beginTransaction s = s := by
  unfold beginTransaction
  split
  · next idle => exact absurd idle within
  · rfl
  · rfl

/-! ### Ends -/

theorem endTransaction_disregarded (content : List Byte) (h : s.transaction = .disregarded ∨ s.resetAsserted = true) :
    endTransaction content s = { s with transaction := .absent } := by
  rcases h with disregarded | asserted
  · simp [endTransaction, State.begunAs, disregarded]
  · exact endTransaction_asserted content asserted

/-- The beginning that an end has: the one that was marked, or the present moment (log 5). -/
theorem endTransaction_begun (content : List Byte) {b : Beginning} (released : s.resetAsserted = false)
    (h : s.transaction = .begun b ∨
      s.transaction = .absent ∧ b = { port := s.port, overrun := s.overrun, attn := s.notices.attn }) :
    endTransaction content s = transactionEvent b content { s with transaction := .absent } := by
  have begun : s.begunAs = some b := by
    rcases h with begun | ⟨idle, rfl⟩
    · simp [State.begunAs, begun]
    · simp [State.begunAs, idle, State.beginning]
  simp [endTransaction, begun, released]

end

/-- A FETCH of at least two bytes (R183). -/
theorem transactionEvent_fetch (b : Beginning) {n : Nat} (h : 2 ≤ n) (s : State) :
    transactionEvent b (List.replicate n 0) s = fetchEvent b n s := by
  obtain ⟨k, rfl⟩ := Nat.exists_eq_add_of_le h
  have bytes : List.replicate (2 + k) (0 : Byte) = 0 :: 0 :: List.replicate k 0 := by
    rw [Nat.add_comm, List.replicate_succ, List.replicate_succ]
  have size : (0 :: 0 :: List.replicate k (0 : Byte)).length = 2 + k := by
    rw [← bytes, List.length_replicate]
  rw [bytes, transactionEvent, if_pos rfl, size]

/-- A request frame: at least two bytes, the first not 0 (R180). -/
theorem transactionEvent_frame (b : Beginning) {content : List Byte} (h : 2 ≤ content.length) (first : content.head? ≠ some 0)
    (s : State) : transactionEvent b content s = frameEvent b content s := by
  match content, h with
  | x :: y :: rest, _ => exact if_neg fun zero => first (by simp [zero])

/-- The bytes that a request frame shifts out. -/
def frameOut (b : Beginning) (content : List Byte) (s : State) : List Byte :=
  b.statusByte :: (List.range (content.length - 1)).map fun k => Config.shiftedOutByte (s.freeCount + k)

theorem frameOut_length (b : Beginning) {content : List Byte} (h : 2 ≤ content.length) (s : State) :
    (frameOut b content s).length = content.length := by
  simp [frameOut]
  omega

/-- Settles O5: beginnings by the line and RESET_N, ends by their kind and the beginning they had. -/
theorem transactionsTakenAndShiftedOut : Obligations.TransactionsTakenAndShiftedOut := by
  refine ⟨rfl, Beginning.statusByte_toNat, fun c hc s => ?_, fun s n content h => ?_, fun s t b released h ht => ?_,
    fun s tag status released refused => ?_⟩
  · have begins : exec c s = .next (beginTransaction s) := by
      simp only [List.mem_cons, List.not_mem_nil, or_false] at hc
      rcases hc with rfl | rfl <;> rfl
    rw [begins]
    exact ⟨fun idle released => congrArg Host.Outcome.next (beginTransaction_released idle released),
      fun idle asserted => congrArg Host.Outcome.next (beginTransaction_asserted idle asserted),
      fun within => congrArg Host.Outcome.next (beginTransaction_within within)⟩
  · exact ⟨congrArg Host.Outcome.next (endTransaction_disregarded [0] h),
      congrArg Host.Outcome.next (endTransaction_disregarded (List.replicate n 0) h),
      congrArg Host.Outcome.next (endTransaction_disregarded content h)⟩
  · subst ht
    have ended : ∀ content, (.next (endTransaction content s) : Host.Outcome State Fault Refusal) =
        .next (transactionEvent b content { s with transaction := .absent }) :=
      fun content => congrArg Host.Outcome.next (endTransaction_begun content released h)
    refine ⟨ended [0], fun n two => ?_, fun content two first => ?_⟩
    · have fetched := (ended (List.replicate n 0)).trans (congrArg Host.Outcome.next (transactionEvent_fetch b two _))
      refine ⟨fun r stored => fetched.trans ?_, fun none => fetched.trans ?_⟩
      · simp only [fetchEvent, stored, State.shown, padTo, Port.fetched, Reply.bytes]
      · have nothing : b.port.fetched = [0, 1, 0] := by
          cases h : b.port with
          | reply r => exact absurd h (none r)
          | _ => rfl
        rw [fetchEvent, nothing]
        cases h : b.port with
        | reply r => exact absurd h (none r)
        | _ => rfl
    · have taken := (ended content).trans (congrArg Host.Outcome.next (transactionEvent_frame b two first _))
      refine ⟨frameOut b content s, frameOut_length b two s, rfl, fun free => taken.trans ?_, fun h busy => taken.trans ?_⟩
      · rw [frameEvent]
        cases h : s.port with
        | busy x => exact absurd h (free x)
        | _ => rfl
      · simp only [frameEvent, busy]
        rfl
  · refine congrArg Host.Outcome.next ((whileReleased_released released).trans ?_)
    simp only [refusedFrameEvent, refused, State.replied]

end Sys2Proof.Machine
end

section
/-! PROOFS. The step, reset and its release (R20, R82, R124, R157, R192), device time (R188, R189), the op state (R16), and the laws
right after reset. -/

namespace Sys2Proof.Machine

/-- Settles O1, by the queue. -/
theorem stepTakesFrontCommand : Obligations.StepTakesFrontCommand :=
  ⟨fun _ _ _ => rfl, fun _ => rfl⟩

/-! ### Reset and its release -/

theorem Transaction.cut_eq (t : Transaction) : t.cut = if t = .absent then .absent else .disregarded := by
  cases t <;> rfl

/-- Settles O7: both commands put the part in the one reset state. -/
theorem resetHoldsEveryBlock : Obligations.ResetHoldsEveryBlock := by
  intro c hc s
  have held : exec c s = .next (resetState s) := by
    simp only [List.mem_cons, List.not_mem_nil, or_false] at hc
    rcases hc with rfl | rfl <;> rfl
  rw [held, ← Transaction.cut_eq]
  rfl

theorem capSelNumber_eq {lines : Vector Bool 3} {k : Fin 8}
    (h : k.val = (if lines[0] then 1 else 0) + (if lines[1] then 2 else 0) + (if lines[2] then 4 else 0)) :
    capSelNumber lines = k := by
  have number : bitsOf [lines[0], lines[1], lines[2]] = k.val := by
    rw [h]
    simp [bitsOf, Nat.mul_add, Nat.add_assoc]
  rw [capSelNumber, number, Fin.ofNat_val_eq_self]

/-- The release from the reset state, with any lines and any transaction. -/
theorem releaseEvent_held {pins : Pins} {k : Fin 8} (lines : capSelNumber pins.capSel = k) (pending : List Instr) (n : Nat)
    (t : Transaction) (out : List Byte) :
    releaseEvent { State.held pins with pending := pending, freeCount := n, transaction := t, shiftedOut := out } =
      { State.held pins with
        pending := pending, freeCount := n, transaction := t, shiftedOut := out, resetAsserted := false
        alerts := { Alerts.atReset with evalTimer := some 600 }
        alloc := { Allocator.atReset with observed := k, selected := k }
        guard := { Guard.atReset with
          lineHigh := pins.intakeHigh, trip := .armed (if pins.intakeHigh then some 50 else none) } } := by
  cases high : pins.intakeHigh <;>
    simp [releaseEvent, enterArmed, startFilter, State.setTrip, startTimer, State.held, Alerts.atReset, Allocator.atReset,
      Guard.atReset, lines, high]

/-- Settles O8: the release takes the lines as they stand. -/
theorem releaseTakesTheLines : Obligations.ReleaseTakesTheLines := by
  refine ⟨fun pins pending n t out k _ lines => ?_, ?_⟩
  · exact congrArg Host.Outcome.next (releaseEvent_held (capSelNumber_eq lines) pending n t out)
  · have released := releaseEvent_held (pins := Pins.low) (k := 0) rfl [] 0 .absent []
    exact congrArg Host.Outcome.next released

/-! ### Device time (R188, R189) -/

/-- An expiry whose timer does not run, or whose count is not reached, has no effect (R189). -/
theorem expiryEvent_of_not_due {e : Expiry} {s : State} (h : due (s.timerOf e) s.ds = false) : expiryEvent e s = s := by
  cases e with
  | stale i =>
    simp only [State.timerOf] at h
    simp only [expiryEvent, staleEvent]
    split
    · rfl
    · next present =>
      rw [present] at h
      exact if_neg (by simpa using h)
  | dryGap k =>
    simp only [State.timerOf] at h
    simp only [expiryEvent, dryGapEvent]
    split
    · rfl
    · next defined =>
      rw [defined] at h
      exact if_neg (by simpa using h)
  | evaluation => exact if_neg (by simpa [State.timerOf] using h)
  | floor k =>
    simp only [State.timerOf] at h
    simp only [expiryEvent, floorEvent]
    split
    · rfl
    · next c defined =>
      rw [defined] at h
      refine if_neg ?_
      rw [Catchment.floorDue]
      cases floor : c.floor <;> simp_all [due]
  | settle => exact if_neg (by simpa [State.timerOf] using h)
  | period =>
    refine if_neg ?_
    simp only [State.timerOf] at h
    simp [h]
  | filter =>
    simp only [State.timerOf] at h
    simp only [expiryEvent, filterEvent]
    cases trip : s.guard.trip <;> simp_all [Trip.filterTimer]
  | blank =>
    simp only [State.timerOf] at h
    simp only [expiryEvent, blankEvent]
    cases trip : s.guard.trip <;> simp_all [Trip.blankTimer, due]
  | off =>
    simp only [State.timerOf] at h
    simp only [expiryEvent, offEvent]
    cases trip : s.guard.trip <;> simp_all [Trip.offTimer, due]
  | holdEnd =>
    simp only [State.timerOf] at h
    simp only [expiryEvent, holdEndEvent]
    cases hold : s.guard.hold <;> simp_all [Hold.endTimer, due]

/-- Settles O10: the tick by the waiting expiries, an expiry command by its event. -/
theorem deviceTimeAdvances : Obligations.DeviceTimeAdvances := by
  refine ⟨fun s released => ?_, fun e s released => ⟨?_, fun early => ?_⟩, fun s tag taken => ?_⟩
  · obtain ⟨order, -, once, waiting, tick⟩ := tickEvent_spec s
    have count : satAdd max32 s.ds 1 = if s.ds < 4294967295 then s.ds + 1 else 4294967295 := by
      rw [satAdd, max32]
      split <;> omega
    rw [count] at tick
    exact ⟨order, _, once, waiting, rfl, congrArg Host.Outcome.next ((whileReleased_released released).trans tick)⟩
  · exact (exec_commandOf e s).trans (congrArg Host.Outcome.next (whileReleased_released released))
  · refine expiryEvent_of_not_due (Bool.eq_false_iff.2 fun reached => ?_)
    obtain ⟨n, running, past⟩ := (due_iff _ _).1 reached
    exact absurd past (early n running).not_ge
  · refine exec_accepted (exec_readTime_taken taken) ?_
    rw [answerReadTime, joinFields_eq_laidOut]
    simp [laidOut, State.now]

/-! ### The op state (R16) -/

theorem latchedFault_iff (d : TankDef) (v : Supervisor) :
    latchedFault d v = true ↔ v.levelLost = true ∨ v.stall = true ∧ d.faultReaction = .latch := by
  simp [latchedFault]

/-- Settles O51, entry by entry of the table. -/
theorem opStateTable : Obligations.OpStateTable := by
  intro d l v active
  rw [← latchedFault_iff]
  refine ⟨fun fault => if_pos fault, fun sound => ⟨fun absent => ?_, fun level present => ?_⟩⟩
  · rw [formOp, if_neg sound, absent]
  · have rest : formOp d l v active = if 0 < active then .draining
        else if level ≤ d.dryLevel then .dry else if 0 < l.netRate.getD 0 then .filling else .storing := by
      rw [formOp, if_neg sound, present]
    rw [rest]
    refine ⟨fun drains => if_pos drains, fun still low => ?_, fun still high => ⟨?_, fun falls => ?_⟩⟩
    · rw [if_neg (by omega), if_pos low]
    · rintro ⟨e, rate, rises⟩
      rw [if_neg (by omega), if_neg (by omega), rate]
      exact if_pos rises
    · have level : ¬0 < l.netRate.getD 0 := by
        cases rate : l.netRate with
        | none => simp
        | some e => simpa using falls e rate
      rw [if_neg (by omega), if_neg (by omega), if_neg level]

/-! ### The laws right after reset -/

section
variable (i : Fin 32)

theorem reset_tank : State.reset.tanks[i] = none := by
  simp [State.reset, State.held]

theorem reset_order : State.reset.orders[i] = OrderEntry.zero := by
  simp [State.reset, State.held]

theorem reset_gauge (k : Fin 12) : State.reset.gauges[k] = none := by
  simp [State.reset, State.held]

theorem reset_catchment (k : Fin 8) : State.reset.catchments[k] = none := by
  simp [State.reset, State.held]

theorem reset_serviceAt : State.reset.serviceAt i = none := by
  rw [State.serviceAt, reset_tank]
  rfl

end

theorem reset_withinLimits : OrdersWithinLimits State.reset := by
  intro i
  rw [reset_tank, reset_order]
  exact ⟨by simp, fun _ => ⟨rfl, rfl⟩⟩

theorem reset_withinBudget : OrdersWithinBudget State.reset := by
  have active : activeSum State.reset State.reset.autoActive = 0 :=
    (sumTanks_eq_zero_iff _).2 fun i => by rw [reset_order]; exact ite_self _
  have next : nextSum State.reset State.reset.autoNext = 0 :=
    (sumTanks_eq_zero_iff _).2 fun i => by rw [reset_order]; exact ite_self _
  rw [OrdersWithinBudget, active, next]
  exact ⟨Nat.zero_le _, Nat.zero_le _⟩

theorem reset_stopped : StoppedHoldsNothing State.reset := by
  refine ⟨fun _ => ⟨rfl, fun i => ?_⟩, fun _ => rfl⟩
  rw [reset_order]
  exact ⟨rfl, rfl⟩

theorem reset_linesFollow : LinesFollow State.reset := by
  refine ⟨by simp [AttnFollows, State.reset, State.held, Notices.atReset], ?_⟩
  have nowhere : ¬∃ k : Fin 8, ∃ c ∈ State.reset.catchments[k], c.effective = .warning ∨ c.effective = .severe := by
    rintro ⟨k, c, hc, -⟩
    rw [reset_catchment] at hc
    exact absurd hc (by simp)
  exact iff_of_false Bool.false_ne_true nowhere

theorem reset_linesTaken : LinesTaken State.reset := by
  refine ⟨fun _ i => reset_tank i, fun i t ht => ?_, fun _ => ⟨rfl, rfl⟩⟩
  rw [reset_tank] at ht
  exact absurd ht (by simp)

theorem reset_selection : SelectionLawful State.reset := by
  refine ⟨?_, by decide, fun _ => rfl⟩
  simp [State.reset, State.held, Allocator.atReset]

theorem reset_settings : SettingsInRange State.reset := by
  refine ⟨?_, ?_, ?_, ?_, ?_, ?_, ?_, ?_, ?_, ?_, ?_, fun i t ht => ?_, fun k g hg => ?_⟩
  case refine_12 => rw [reset_tank] at ht; exact absurd ht (by simp)
  case refine_13 => rw [reset_gauge] at hg; exact absurd hg (by simp)
  all_goals simp [State.reset, State.held, Allocator.atReset, Alerts.atReset, Guard.atReset]

/-- Settles O60: with no record and no order, the laws of records and orders have nothing to say, and the rest stands in the reset
values. -/
theorem lawsHoldAtReset : Obligations.LawsHoldAtReset := by
  have unserved : ∀ i : Fin 32, ∀ p, p ∉ State.reset.serviceAt i := fun i p => by simp [reset_serviceAt]
  have untanked : ∀ i : Fin 32, ∀ t, t ∉ State.reset.tanks[i] := fun i t => by rw [reset_tank]; simp
  have ungauged : ∀ k : Fin 12, ∀ g, g ∉ State.reset.gauges[k] := fun k g => by rw [reset_gauge]; simp
  have uncatched : ∀ k : Fin 8, ∀ c, c ∉ State.reset.catchments[k] := fun k c => by rw [reset_catchment]; simp
  have zero : ∀ i : Fin 32, State.reset.orders[i].next = 0 := fun i => by rw [reset_order]; rfl
  exact ⟨fun i p hp => absurd hp (unserved i p), reset_withinLimits, fun i _ hn => absurd (zero i) hn,
    fun _ i t ht => absurd ht (untanked i t), ⟨List.nodup_nil, fun i hi => absurd hi (List.not_mem_nil)⟩, reset_withinBudget,
    reset_stopped, fun k g hg => absurd hg (ungauged k g), fun k c hc => absurd hc (uncatched k c),
    ⟨fun i t ht => absurd ht (untanked i t), fun k c hc => absurd hc (uncatched k c)⟩, fun i t ht => absurd ht (untanked i t),
    fun i p hp => absurd hp (unserved i p), reset_linesFollow, reset_linesTaken, reset_selection,
    fun _ _ _ _ h => Hold.noConfusion h, ⟨by decide, by decide⟩, reset_settings, fun _ _ _ => Nat.zero_le _⟩

end Sys2Proof.Machine
end
